-- ==== Sys2Proof/Word.lean ====
section
/-! DEFINITION. The word types of the block: 8-bit bytes and 16-bit addresses (R7, R11). -/

namespace Sys2Proof

/-- One byte: the width of `A`, `X`, `Y`, `SP`, `P` and of every memory location (R7). -/
abbrev Byte := BitVec 8

/-- A CPU address or the program counter, 16 bits (R7, R24). -/
abbrev Word := BitVec 16

end Sys2Proof
end

