-- ==== Sys2Proof/Machine/Bits.lean ====
section
/-! DEFINITION. Bit-field, extension and byte-order helpers (R11 to R13, R80). -/

namespace Sys2Proof.Machine

/-- `zext_16(v)` (R12): the byte as a 16-bit value with high byte 0. -/
def zext16 (b : Byte) : Word := b.setWidth 16

/-- `sext_8(v)` reduced modulo 65536 (R11, R12): the byte as a signed offset in 16-bit arithmetic. -/
def sext16 (b : Byte) : Word := b.signExtend 16

/-- `{hi, lo}` (R11): the 16-bit word with these bytes. -/
def word (hi lo : Byte) : Word := hi ++ lo

/-- `w[15:8]`. -/
def hiByte (w : Word) : Byte := w.extractLsb' 8 8

/-- `w[7:0]`. -/
def loByte (w : Word) : Byte := w.extractLsb' 0 8

/-- `PageCross(a, b)` (R13): the two addresses lie in different 256-byte pages. -/
def pageCross (a b : Word) : Bool := hiByte a != hiByte b

/-- A Boolean used as a bit (R11). -/
def bit (b : Bool) : Nat := if b then 1 else 0

end Sys2Proof.Machine
end

