-- ==== Sys2Proof/Config.lean ====
section
/-! DEFINITION. What this spec fixes for the block (R7), the parameters it leaves to the run, and the free values. -/

namespace Sys2Proof

/-- `MIRRORING` (R7): how the four logical nametables fold onto the two physical banks (R284). -/
inductive Mirroring where
  | horizontal
  | vertical
deriving DecidableEq, Repr

/-- `BRK_MODE` (R7, R226): BRK ends the run, or is a software interrupt. -/
inductive BrkMode where
  | halt
  | interrupt
deriving DecidableEq, Repr

/-- `IRQ_DELIVERY` (R7, R336): whether the arbiter ever takes the frame IRQ. -/
inductive IrqDelivery where
  | off
  | on
deriving DecidableEq, Repr

/-- `PRG_SIZE` (R7, R102): one or two 16 KiB banks; any other size is refused at configuration, here by having no name. -/
inductive PrgSize where
  | k16
  | k32
deriving DecidableEq, Repr

namespace Config

/-- The number of bytes of program ROM. -/
def prgBytes : PrgSize → Nat
  | .k16 => 16384
  | .k32 => 32768

/-- `STACK_BASE` (R7, R21). -/
def stackBase : Word := 0x0100

/-- `VEC_NMI` (R7, R407). -/
def vecNmi : Word := 0xFFFA

/-- `VEC_RESET` (R7, R407). -/
def vecReset : Word := 0xFFFC

/-- `VEC_IRQ`, which is also `VEC_BRK` (R7, R407). -/
def vecIrq : Word := 0xFFFE

/-- `INT_CYCLES` (R7): the cost of an NMI, IRQ or BRK entry. -/
def intCycles : Nat := 7

/-- `RESET_CYCLES` (R7). -/
def resetCycles : Nat := 7

/-- `FRAME_STEP_PERIOD` (R7, R333): CPU cycles per frame-counter step. -/
def frameStepPeriod : Nat := 7457

/-- `PLACEHOLDER` (R7): what a read of a write-only register returns. -/
def placeholder : Byte := 0x00

/-- `PPU_CYCLES_PER_SCANLINE` (R7). -/
def dotsPerScanline : Nat := 341

/-- `SCANLINES_PER_FRAME` (R7). -/
def scanlinesPerFrame : Nat := 262

/-- `VBLANK_SCANLINE` (R7). -/
def vblankScanline : Nat := 241

/-- Work RAM size (R7). -/
def ramBytes : Nat := 2048

/-- Nametable RAM size (R7). -/
def vramBytes : Nat := 2048

/-- Palette RAM size (R7). -/
def paletteBytes : Nat := 32

/-- OAM size (R7). -/
def oamBytes : Nat := 256

/-- `CHR_SIZE` (R7). -/
def chrBytes : Nat := 8192

/-- What a byte of memory that nothing lists reads as. DESIGN CHOICE, not safe (log 1): the spec says power-on contents are any
value (R7, R441); the run's own contents are listed in the state. -/
def unlistedByte : Byte := 0x00

/-- The byte the n-th call of `Joypad.read()` returns (R6, R99): a free value, nothing constrains it (log 2). -/
opaque joypadByte : Nat → Byte

end Config

end Sys2Proof
end

