-- ==== Sys2Proof/Syntax.lean ====
section
/-! DEFINITION. The instructions: one constructor per row of the opcode table (R148), with its operand bytes as the
row's format has them (R130): none for F1, one byte for F2, one little-endian 16-bit word for F3. -/

namespace Sys2Proof

/-- The 56 mnemonics (R148). -/
inductive Mnemonic where
  | lda | ldx | ldy | sta | stx | sty | tax | tay
  | txa | tya | tsx | txs | adc | sbc | and | ora
  | eor | cmp | cpx | cpy | bit | inc | dec | inx
  | iny | dex | dey | asl | lsr | rol | ror | jmp
  | jsr | rts | rti | brk | nop | bcc | bcs | beq
  | bne | bmi | bpl | bvc | bvs | pha | php | plp
  | pla | clc | sec | cli | sei | cld | sed | clv
deriving DecidableEq, Repr

/-- The thirteen addressing modes (R134 to R146). -/
inductive Mode where
  | implied
  | accumulator
  | immediate
  | zeroPage
  | zeroPageX
  | zeroPageY
  | absolute
  | absoluteX
  | absoluteY
  | indirectX
  | indirectY
  | indirect
  | relative
deriving DecidableEq, Repr

/-- The length of an instruction in bytes is a function of its addressing mode (R133). -/
def Mode.length : Mode → Nat
  | .implied | .accumulator => 1
  | .immediate | .zeroPage | .zeroPageX | .zeroPageY | .indirectX | .indirectY | .relative => 2
  | .absolute | .absoluteX | .absoluteY | .indirect => 3

/-- The 151 instructions (R148). -/
inductive Instr where
  /-- `A1` LDA ($nn,X) (R161, R143). -/
  | ldaIndX (d : Byte)
  /-- `A5` LDA $nn (R161, R137). -/
  | ldaZp (d : Byte)
  /-- `A9` LDA #$nn (R161, R136). -/
  | ldaImm (v : Byte)
  /-- `AD` LDA $nnnn (R161, R140). -/
  | ldaAbs (a : Word)
  /-- `B1` LDA ($nn),Y (R161, R144). -/
  | ldaIndY (d : Byte)
  /-- `B5` LDA $nn,X (R161, R138). -/
  | ldaZpX (d : Byte)
  /-- `B9` LDA $nnnn,Y (R161, R142). -/
  | ldaAbsY (base : Word)
  /-- `BD` LDA $nnnn,X (R161, R141). -/
  | ldaAbsX (base : Word)
  /-- `A2` LDX #$nn (R162, R136). -/
  | ldxImm (v : Byte)
  /-- `A6` LDX $nn (R162, R137). -/
  | ldxZp (d : Byte)
  /-- `AE` LDX $nnnn (R162, R140). -/
  | ldxAbs (a : Word)
  /-- `B6` LDX $nn,Y (R162, R139). -/
  | ldxZpY (d : Byte)
  /-- `BE` LDX $nnnn,Y (R162, R142). -/
  | ldxAbsY (base : Word)
  /-- `A0` LDY #$nn (R163, R136). -/
  | ldyImm (v : Byte)
  /-- `A4` LDY $nn (R163, R137). -/
  | ldyZp (d : Byte)
  /-- `AC` LDY $nnnn (R163, R140). -/
  | ldyAbs (a : Word)
  /-- `B4` LDY $nn,X (R163, R138). -/
  | ldyZpX (d : Byte)
  /-- `BC` LDY $nnnn,X (R163, R141). -/
  | ldyAbsX (base : Word)
  /-- `81` STA ($nn,X) (R164, R143). -/
  | staIndX (d : Byte)
  /-- `85` STA $nn (R164, R137). -/
  | staZp (d : Byte)
  /-- `8D` STA $nnnn (R164, R140). -/
  | staAbs (a : Word)
  /-- `91` STA ($nn),Y (R164, R144). -/
  | staIndY (d : Byte)
  /-- `95` STA $nn,X (R164, R138). -/
  | staZpX (d : Byte)
  /-- `99` STA $nnnn,Y (R164, R142). -/
  | staAbsY (base : Word)
  /-- `9D` STA $nnnn,X (R164, R141). -/
  | staAbsX (base : Word)
  /-- `86` STX $nn (R165, R137). -/
  | stxZp (d : Byte)
  /-- `8E` STX $nnnn (R165, R140). -/
  | stxAbs (a : Word)
  /-- `96` STX $nn,Y (R165, R139). -/
  | stxZpY (d : Byte)
  /-- `84` STY $nn (R166, R137). -/
  | styZp (d : Byte)
  /-- `8C` STY $nnnn (R166, R140). -/
  | styAbs (a : Word)
  /-- `94` STY $nn,X (R166, R138). -/
  | styZpX (d : Byte)
  /-- `AA` TAX (R167, R134). -/
  | tax
  /-- `A8` TAY (R168, R134). -/
  | tay
  /-- `8A` TXA (R169, R134). -/
  | txa
  /-- `98` TYA (R170, R134). -/
  | tya
  /-- `BA` TSX (R171, R134). -/
  | tsx
  /-- `9A` TXS (R172, R134). -/
  | txs
  /-- `61` ADC ($nn,X) (R181, R143). -/
  | adcIndX (d : Byte)
  /-- `65` ADC $nn (R181, R137). -/
  | adcZp (d : Byte)
  /-- `69` ADC #$nn (R181, R136). -/
  | adcImm (v : Byte)
  /-- `6D` ADC $nnnn (R181, R140). -/
  | adcAbs (a : Word)
  /-- `71` ADC ($nn),Y (R181, R144). -/
  | adcIndY (d : Byte)
  /-- `75` ADC $nn,X (R181, R138). -/
  | adcZpX (d : Byte)
  /-- `79` ADC $nnnn,Y (R181, R142). -/
  | adcAbsY (base : Word)
  /-- `7D` ADC $nnnn,X (R181, R141). -/
  | adcAbsX (base : Word)
  /-- `E1` SBC ($nn,X) (R182, R143). -/
  | sbcIndX (d : Byte)
  /-- `E5` SBC $nn (R182, R137). -/
  | sbcZp (d : Byte)
  /-- `E9` SBC #$nn (R182, R136). -/
  | sbcImm (v : Byte)
  /-- `ED` SBC $nnnn (R182, R140). -/
  | sbcAbs (a : Word)
  /-- `F1` SBC ($nn),Y (R182, R144). -/
  | sbcIndY (d : Byte)
  /-- `F5` SBC $nn,X (R182, R138). -/
  | sbcZpX (d : Byte)
  /-- `F9` SBC $nnnn,Y (R182, R142). -/
  | sbcAbsY (base : Word)
  /-- `FD` SBC $nnnn,X (R182, R141). -/
  | sbcAbsX (base : Word)
  /-- `21` AND ($nn,X) (R184, R143). -/
  | andIndX (d : Byte)
  /-- `25` AND $nn (R184, R137). -/
  | andZp (d : Byte)
  /-- `29` AND #$nn (R184, R136). -/
  | andImm (v : Byte)
  /-- `2D` AND $nnnn (R184, R140). -/
  | andAbs (a : Word)
  /-- `31` AND ($nn),Y (R184, R144). -/
  | andIndY (d : Byte)
  /-- `35` AND $nn,X (R184, R138). -/
  | andZpX (d : Byte)
  /-- `39` AND $nnnn,Y (R184, R142). -/
  | andAbsY (base : Word)
  /-- `3D` AND $nnnn,X (R184, R141). -/
  | andAbsX (base : Word)
  /-- `01` ORA ($nn,X) (R185, R143). -/
  | oraIndX (d : Byte)
  /-- `05` ORA $nn (R185, R137). -/
  | oraZp (d : Byte)
  /-- `09` ORA #$nn (R185, R136). -/
  | oraImm (v : Byte)
  /-- `0D` ORA $nnnn (R185, R140). -/
  | oraAbs (a : Word)
  /-- `11` ORA ($nn),Y (R185, R144). -/
  | oraIndY (d : Byte)
  /-- `15` ORA $nn,X (R185, R138). -/
  | oraZpX (d : Byte)
  /-- `19` ORA $nnnn,Y (R185, R142). -/
  | oraAbsY (base : Word)
  /-- `1D` ORA $nnnn,X (R185, R141). -/
  | oraAbsX (base : Word)
  /-- `41` EOR ($nn,X) (R186, R143). -/
  | eorIndX (d : Byte)
  /-- `45` EOR $nn (R186, R137). -/
  | eorZp (d : Byte)
  /-- `49` EOR #$nn (R186, R136). -/
  | eorImm (v : Byte)
  /-- `4D` EOR $nnnn (R186, R140). -/
  | eorAbs (a : Word)
  /-- `51` EOR ($nn),Y (R186, R144). -/
  | eorIndY (d : Byte)
  /-- `55` EOR $nn,X (R186, R138). -/
  | eorZpX (d : Byte)
  /-- `59` EOR $nnnn,Y (R186, R142). -/
  | eorAbsY (base : Word)
  /-- `5D` EOR $nnnn,X (R186, R141). -/
  | eorAbsX (base : Word)
  /-- `C1` CMP ($nn,X) (R187, R143). -/
  | cmpIndX (d : Byte)
  /-- `C5` CMP $nn (R187, R137). -/
  | cmpZp (d : Byte)
  /-- `C9` CMP #$nn (R187, R136). -/
  | cmpImm (v : Byte)
  /-- `CD` CMP $nnnn (R187, R140). -/
  | cmpAbs (a : Word)
  /-- `D1` CMP ($nn),Y (R187, R144). -/
  | cmpIndY (d : Byte)
  /-- `D5` CMP $nn,X (R187, R138). -/
  | cmpZpX (d : Byte)
  /-- `D9` CMP $nnnn,Y (R187, R142). -/
  | cmpAbsY (base : Word)
  /-- `DD` CMP $nnnn,X (R187, R141). -/
  | cmpAbsX (base : Word)
  /-- `E0` CPX #$nn (R188, R136). -/
  | cpxImm (v : Byte)
  /-- `E4` CPX $nn (R188, R137). -/
  | cpxZp (d : Byte)
  /-- `EC` CPX $nnnn (R188, R140). -/
  | cpxAbs (a : Word)
  /-- `C0` CPY #$nn (R189, R136). -/
  | cpyImm (v : Byte)
  /-- `C4` CPY $nn (R189, R137). -/
  | cpyZp (d : Byte)
  /-- `CC` CPY $nnnn (R189, R140). -/
  | cpyAbs (a : Word)
  /-- `24` BIT $nn (R190, R137). -/
  | bitZp (d : Byte)
  /-- `2C` BIT $nnnn (R190, R140). -/
  | bitAbs (a : Word)
  /-- `E6` INC $nn (R191, R137). -/
  | incZp (d : Byte)
  /-- `EE` INC $nnnn (R191, R140). -/
  | incAbs (a : Word)
  /-- `F6` INC $nn,X (R191, R138). -/
  | incZpX (d : Byte)
  /-- `FE` INC $nnnn,X (R191, R141). -/
  | incAbsX (base : Word)
  /-- `C6` DEC $nn (R192, R137). -/
  | decZp (d : Byte)
  /-- `CE` DEC $nnnn (R192, R140). -/
  | decAbs (a : Word)
  /-- `D6` DEC $nn,X (R192, R138). -/
  | decZpX (d : Byte)
  /-- `DE` DEC $nnnn,X (R192, R141). -/
  | decAbsX (base : Word)
  /-- `E8` INX (R193, R134). -/
  | inx
  /-- `C8` INY (R194, R134). -/
  | iny
  /-- `CA` DEX (R195, R134). -/
  | dex
  /-- `88` DEY (R196, R134). -/
  | dey
  /-- `06` ASL $nn (R211, R137). -/
  | aslZp (d : Byte)
  /-- `0A` ASL A (R211, R135). -/
  | aslA
  /-- `0E` ASL $nnnn (R211, R140). -/
  | aslAbs (a : Word)
  /-- `16` ASL $nn,X (R211, R138). -/
  | aslZpX (d : Byte)
  /-- `1E` ASL $nnnn,X (R211, R141). -/
  | aslAbsX (base : Word)
  /-- `46` LSR $nn (R212, R137). -/
  | lsrZp (d : Byte)
  /-- `4A` LSR A (R212, R135). -/
  | lsrA
  /-- `4E` LSR $nnnn (R212, R140). -/
  | lsrAbs (a : Word)
  /-- `56` LSR $nn,X (R212, R138). -/
  | lsrZpX (d : Byte)
  /-- `5E` LSR $nnnn,X (R212, R141). -/
  | lsrAbsX (base : Word)
  /-- `26` ROL $nn (R213, R137). -/
  | rolZp (d : Byte)
  /-- `2A` ROL A (R213, R135). -/
  | rolA
  /-- `2E` ROL $nnnn (R213, R140). -/
  | rolAbs (a : Word)
  /-- `36` ROL $nn,X (R213, R138). -/
  | rolZpX (d : Byte)
  /-- `3E` ROL $nnnn,X (R213, R141). -/
  | rolAbsX (base : Word)
  /-- `66` ROR $nn (R214, R137). -/
  | rorZp (d : Byte)
  /-- `6A` ROR A (R214, R135). -/
  | rorA
  /-- `6E` ROR $nnnn (R214, R140). -/
  | rorAbs (a : Word)
  /-- `76` ROR $nn,X (R214, R138). -/
  | rorZpX (d : Byte)
  /-- `7E` ROR $nnnn,X (R214, R141). -/
  | rorAbsX (base : Word)
  /-- `4C` JMP $nnnn (R221, R140). -/
  | jmpAbs (target : Word)
  /-- `6C` JMP ($nnnn) (R221, R145). -/
  | jmpInd (ptr : Word)
  /-- `20` JSR $nnnn (R222, R140). -/
  | jsrAbs (target : Word)
  /-- `60` RTS (R223, R134). -/
  | rts
  /-- `40` RTI (R225, R134). -/
  | rti
  /-- `00` BRK (R226, R134). -/
  | brk
  /-- `EA` NOP (R227, R134). -/
  | nop
  /-- `90` BCC label (R228, R146). -/
  | bcc (off : Byte)
  /-- `B0` BCS label (R229, R146). -/
  | bcs (off : Byte)
  /-- `F0` BEQ label (R230, R146). -/
  | beq (off : Byte)
  /-- `D0` BNE label (R231, R146). -/
  | bne (off : Byte)
  /-- `30` BMI label (R232, R146). -/
  | bmi (off : Byte)
  /-- `10` BPL label (R233, R146). -/
  | bpl (off : Byte)
  /-- `50` BVC label (R234, R146). -/
  | bvc (off : Byte)
  /-- `70` BVS label (R235, R146). -/
  | bvs (off : Byte)
  /-- `48` PHA (R251, R134). -/
  | pha
  /-- `08` PHP (R252, R134). -/
  | php
  /-- `28` PLP (R253, R134). -/
  | plp
  /-- `68` PLA (R254, R134). -/
  | pla
  /-- `18` CLC (R255, R134). -/
  | clc
  /-- `38` SEC (R256, R134). -/
  | sec
  /-- `58` CLI (R257, R134). -/
  | cli
  /-- `78` SEI (R258, R134). -/
  | sei
  /-- `D8` CLD (R259, R134). -/
  | cld
  /-- `F8` SED (R260, R134). -/
  | sed
  /-- `B8` CLV (R261, R134). -/
  | clv
deriving DecidableEq, Repr

/-- The mnemonic of an instruction (R148). -/
def Instr.mnemonic : Instr → Mnemonic
  | .ldaIndX _ | .ldaZp _ | .ldaImm _ | .ldaAbs _ | .ldaIndY _ | .ldaZpX _ | .ldaAbsY _ | .ldaAbsX _ => .lda
  | .ldxImm _ | .ldxZp _ | .ldxAbs _ | .ldxZpY _ | .ldxAbsY _ => .ldx
  | .ldyImm _ | .ldyZp _ | .ldyAbs _ | .ldyZpX _ | .ldyAbsX _ => .ldy
  | .staIndX _ | .staZp _ | .staAbs _ | .staIndY _ | .staZpX _ | .staAbsY _ | .staAbsX _ => .sta
  | .stxZp _ | .stxAbs _ | .stxZpY _ => .stx
  | .styZp _ | .styAbs _ | .styZpX _ => .sty
  | .tax => .tax
  | .tay => .tay
  | .txa => .txa
  | .tya => .tya
  | .tsx => .tsx
  | .txs => .txs
  | .adcIndX _ | .adcZp _ | .adcImm _ | .adcAbs _ | .adcIndY _ | .adcZpX _ | .adcAbsY _ | .adcAbsX _ => .adc
  | .sbcIndX _ | .sbcZp _ | .sbcImm _ | .sbcAbs _ | .sbcIndY _ | .sbcZpX _ | .sbcAbsY _ | .sbcAbsX _ => .sbc
  | .andIndX _ | .andZp _ | .andImm _ | .andAbs _ | .andIndY _ | .andZpX _ | .andAbsY _ | .andAbsX _ => .and
  | .oraIndX _ | .oraZp _ | .oraImm _ | .oraAbs _ | .oraIndY _ | .oraZpX _ | .oraAbsY _ | .oraAbsX _ => .ora
  | .eorIndX _ | .eorZp _ | .eorImm _ | .eorAbs _ | .eorIndY _ | .eorZpX _ | .eorAbsY _ | .eorAbsX _ => .eor
  | .cmpIndX _ | .cmpZp _ | .cmpImm _ | .cmpAbs _ | .cmpIndY _ | .cmpZpX _ | .cmpAbsY _ | .cmpAbsX _ => .cmp
  | .cpxImm _ | .cpxZp _ | .cpxAbs _ => .cpx
  | .cpyImm _ | .cpyZp _ | .cpyAbs _ => .cpy
  | .bitZp _ | .bitAbs _ => .bit
  | .incZp _ | .incAbs _ | .incZpX _ | .incAbsX _ => .inc
  | .decZp _ | .decAbs _ | .decZpX _ | .decAbsX _ => .dec
  | .inx => .inx
  | .iny => .iny
  | .dex => .dex
  | .dey => .dey
  | .aslZp _ | .aslA | .aslAbs _ | .aslZpX _ | .aslAbsX _ => .asl
  | .lsrZp _ | .lsrA | .lsrAbs _ | .lsrZpX _ | .lsrAbsX _ => .lsr
  | .rolZp _ | .rolA | .rolAbs _ | .rolZpX _ | .rolAbsX _ => .rol
  | .rorZp _ | .rorA | .rorAbs _ | .rorZpX _ | .rorAbsX _ => .ror
  | .jmpAbs _ | .jmpInd _ => .jmp
  | .jsrAbs _ => .jsr
  | .rts => .rts
  | .rti => .rti
  | .brk => .brk
  | .nop => .nop
  | .bcc _ => .bcc
  | .bcs _ => .bcs
  | .beq _ => .beq
  | .bne _ => .bne
  | .bmi _ => .bmi
  | .bpl _ => .bpl
  | .bvc _ => .bvc
  | .bvs _ => .bvs
  | .pha => .pha
  | .php => .php
  | .plp => .plp
  | .pla => .pla
  | .clc => .clc
  | .sec => .sec
  | .cli => .cli
  | .sei => .sei
  | .cld => .cld
  | .sed => .sed
  | .clv => .clv

/-- The addressing mode of an instruction (R148). -/
def Instr.mode : Instr → Mode
  | .tax | .tay | .txa | .tya | .tsx | .txs | .inx | .iny
  | .dex | .dey | .rts | .rti | .brk | .nop | .pha | .php
  | .plp | .pla | .clc | .sec | .cli | .sei | .cld | .sed
  | .clv => .implied
  | .aslA | .lsrA | .rolA | .rorA => .accumulator
  | .ldaImm _ | .ldxImm _ | .ldyImm _ | .adcImm _ | .sbcImm _ | .andImm _ | .oraImm _ | .eorImm _
  | .cmpImm _ | .cpxImm _ | .cpyImm _ => .immediate
  | .ldaZp _ | .ldxZp _ | .ldyZp _ | .staZp _ | .stxZp _ | .styZp _ | .adcZp _ | .sbcZp _
  | .andZp _ | .oraZp _ | .eorZp _ | .cmpZp _ | .cpxZp _ | .cpyZp _ | .bitZp _ | .incZp _
  | .decZp _ | .aslZp _ | .lsrZp _ | .rolZp _ | .rorZp _ => .zeroPage
  | .ldaZpX _ | .ldyZpX _ | .staZpX _ | .styZpX _ | .adcZpX _ | .sbcZpX _ | .andZpX _ | .oraZpX _
  | .eorZpX _ | .cmpZpX _ | .incZpX _ | .decZpX _ | .aslZpX _ | .lsrZpX _ | .rolZpX _ | .rorZpX _ => .zeroPageX
  | .ldxZpY _ | .stxZpY _ => .zeroPageY
  | .ldaAbs _ | .ldxAbs _ | .ldyAbs _ | .staAbs _ | .stxAbs _ | .styAbs _ | .adcAbs _ | .sbcAbs _
  | .andAbs _ | .oraAbs _ | .eorAbs _ | .cmpAbs _ | .cpxAbs _ | .cpyAbs _ | .bitAbs _ | .incAbs _
  | .decAbs _ | .aslAbs _ | .lsrAbs _ | .rolAbs _ | .rorAbs _ | .jmpAbs _ | .jsrAbs _ => .absolute
  | .ldaAbsX _ | .ldyAbsX _ | .staAbsX _ | .adcAbsX _ | .sbcAbsX _ | .andAbsX _ | .oraAbsX _ | .eorAbsX _
  | .cmpAbsX _ | .incAbsX _ | .decAbsX _ | .aslAbsX _ | .lsrAbsX _ | .rolAbsX _ | .rorAbsX _ => .absoluteX
  | .ldaAbsY _ | .ldxAbsY _ | .staAbsY _ | .adcAbsY _ | .sbcAbsY _ | .andAbsY _ | .oraAbsY _ | .eorAbsY _
  | .cmpAbsY _ => .absoluteY
  | .ldaIndX _ | .staIndX _ | .adcIndX _ | .sbcIndX _ | .andIndX _ | .oraIndX _ | .eorIndX _ | .cmpIndX _ => .indirectX
  | .ldaIndY _ | .staIndY _ | .adcIndY _ | .sbcIndY _ | .andIndY _ | .oraIndY _ | .eorIndY _ | .cmpIndY _ => .indirectY
  | .jmpInd _ => .indirect
  | .bcc _ | .bcs _ | .beq _ | .bne _ | .bmi _ | .bpl _ | .bvc _ | .bvs _ => .relative

/-- The length of an instruction in bytes (R133). -/
def Instr.length (i : Instr) : Nat := i.mode.length

end Sys2Proof
end

