-- ==== Sys2Proof/Machine/State.lean ====
section
/-! DEFINITION. Everything the spec gives the machine, as plain data (R20 to R54, R31, R7), the state right after reset, and
one setter per field. -/

namespace Sys2Proof.Machine

/-- A memory: (index, byte) pairs, indexes strictly rising, no entry equal to what an unlisted index reads as
(`Memory.wf` in Machine/Memory.lean). -/
abbrev Memory := List Host.Cell

/-! ## PPU (R34 to R47) -/

/-- The PPU's state. The status register R36 is its three flags `vblank`, `sprite0Hit`, `spriteOverflow`. -/
structure Ppu where
  /-- `ppu_ctrl` (R34). -/
  ctrl : Byte
  /-- `ppu_mask` (R35). -/
  mask : Byte
  /-- Status bit 7 (R36). -/
  vblank : Bool
  /-- Status bit 6 (R36, R277). -/
  sprite0Hit : Bool
  /-- Status bit 5 (R36, R277). -/
  spriteOverflow : Bool
  /-- `oam_addr` (R37). -/
  oamAddr : Byte
  /-- `scroll_x` (R38). -/
  scrollX : Byte
  /-- `scroll_y` (R38). -/
  scrollY : Byte
  /-- `vram_addr` (R39). -/
  vramAddr : BitVec 14
  /-- The shared write toggle (R40): the next write to offset 5 or 6 is the second of a pair. -/
  w : Bool
  /-- `read_buf` (R41). -/
  readBuf : Byte
  /-- `scanline` (R42). -/
  scanline : Nat
  /-- `cycle` (R42), the dot within the scanline. -/
  cycle : Nat
  /-- `nmi_pending` (R44). -/
  nmiPending : Bool
  /-- `frame_complete` (R43, R315): an output of the last tick batch (log 12). -/
  frameComplete : Bool
  /-- The nametable RAM (R45). -/
  vram : Memory
  /-- The palette RAM (R46). -/
  palette : Memory
  /-- The object-attribute memory (R47). -/
  oam : Memory
deriving DecidableEq, Repr

/-! ## APU (R48 to R54) -/

/-- `env[p]` (R49). `loop` is also the pulse channel's length-counter halt flag (R51). -/
structure Envelope where
  start : Bool
  loop : Bool
  constant : Bool
  volume : BitVec 4
  divider : BitVec 4
  decay : BitVec 4
deriving DecidableEq, Repr

/-- `sweep[p]` (R50). -/
structure Sweep where
  enabled : Bool
  period : BitVec 3
  negate : Bool
  shift : BitVec 3
  reload : Bool
  divider : BitVec 3
deriving DecidableEq, Repr

/-- `pulse[p]` (R48) with the units it owns; `length` is `len[pulse p].counter` (R51). -/
structure Pulse where
  enabled : Bool
  duty : BitVec 2
  seqPos : BitVec 3
  period : BitVec 11
  timer : BitVec 11
  env : Envelope
  sweep : Sweep
  length : Byte
deriving DecidableEq, Repr

/-- `tri` (R52); `control` is also the length-counter halt flag and `length` is `len[triangle].counter` (R51). -/
structure Triangle where
  enabled : Bool
  control : Bool
  linearReloadValue : BitVec 7
  linear : BitVec 7
  linearReload : Bool
  period : BitVec 11
  timer : BitVec 11
  seqPos : BitVec 5
  length : Byte
deriving DecidableEq, Repr

/-- `fc`, the frame counter (R53). `mode` true is the 5-step mode. -/
structure FrameCounter where
  mode : Bool
  irqInhibit : Bool
  step : Nat
  divider : Nat
  frameIrq : Bool
deriving DecidableEq, Repr

/-- The APU's state; `apuOdd` is the parity of APU ticks (R54). -/
structure Apu where
  pulse1 : Pulse
  pulse2 : Pulse
  tri : Triangle
  fc : FrameCounter
  apuOdd : Bool
deriving DecidableEq, Repr

/-! ## Parameters, events, reasons to stop -/

/-- The parameters of the block that are arguments of a run (R7); no rule writes them. -/
structure Params where
  /-- `PRG`: the program ROM's bytes, by index. -/
  prg : Memory
  /-- `PRG_SIZE`. -/
  prgSize : PrgSize
  /-- `CHR`: the character ROM's bytes, by index. -/
  chr : Memory
  /-- `MIRRORING`. -/
  mirroring : Mirroring
  /-- `BRK_MODE`. -/
  brkMode : BrkMode
  /-- `IRQ_DELIVERY`. -/
  irqDelivery : IrqDelivery
  /-- Whether an observer is attached (R6, R432). -/
  observer : Bool
deriving DecidableEq, Repr

/-- The kinds of recoverable diagnostics (R403). -/
inductive DiagKind where
  | illegalWrite
  | illegalRead
  | unmappedAccess
deriving DecidableEq, Repr

/-- What the block sends out of its ports during a step (R6); no rule reads it back. -/
inductive Event where
  /-- `Diag(kind, addr, value)` (R403). -/
  | diag (kind : DiagKind) (addr : Word) (value : Byte)
  /-- One call of `Joypad.read()`, the n-th since power-on (R99). -/
  | joypadRead (n : Nat)
  /-- `Joypad.write(v)` (R99). -/
  | joypadWrite (v : Byte)
  /-- `FrameReady` (R322). -/
  | frameReady
  /-- `Observer(state)` (R432). -/
  | observer
deriving DecidableEq, Repr

/-- The fatal condition `InvalidOpcode(byte, addr)` (R401). -/
structure InvalidOpcode where
  byte : Byte
  addr : Word
deriving DecidableEq, Repr

/-- The fatal conditions of R400. -/
inductive Fault where
  /-- Answered by nothing: an illegal opcode is a next state with `fault` latched, and a failed machine's step changes nothing
  (R9, R401; log 10). Safe. -/
  | invalidOpcode (byte : Byte) (addr : Word)
deriving DecidableEq, Repr

/-- Why an instruction has no meaning. -/
inductive Refusal where
  /-- `exec`, on an instruction that is not modelled yet. Safe: nothing can be proved of it. No instruction is refused. -/
  | notModelled (mnemonic : String)
deriving DecidableEq, Repr

/-! ## The state -/

/-- The state of the machine between two steps. -/
structure State where
  /-- The accumulator (R20). -/
  a : Byte
  /-- Index register X (R20). -/
  x : Byte
  /-- Index register Y (R20). -/
  y : Byte
  /-- The stack pointer (R21). -/
  sp : Byte
  /-- The status register (R26). -/
  p : Byte
  /-- The program counter (R24). -/
  pc : Word
  /-- CPU cycles ticked since reset (R31). -/
  cyc : Nat
  /-- The run has ended (R31, R433). -/
  halted : Bool
  /-- A fatal condition was met (R31, R401). -/
  fault : Option InvalidOpcode
  /-- The stall of this step's OAM DMA (R31, R116), 0 at the start of every step; it stands until the next one begins (DEDUCED, log 7). -/
  dmaStall : Nat
  /-- The cost the last step returned, `n` of R9 (the model's own field, log 6). -/
  stepCycles : Nat
  /-- The work RAM (R32). -/
  ram : Memory
  /-- `nmi_prev` of the edge detector (R33). -/
  nmiPrev : Bool
  /-- The PPU. -/
  ppu : Ppu
  /-- The APU. -/
  apu : Apu
  /-- The run's parameters (R7). -/
  params : Params
  /-- `reset_req`, an input (R6, R9). -/
  resetReq : Bool
  /-- `stop_req`, an input (R6, R434). -/
  stopReq : Bool
  /-- How many times `Joypad.read()` has been called: the index of its next free value (the model's own field, log 2). -/
  joypadReads : Nat
  /-- What the last step sent out of the ports, in order (R6, R403; log 5). -/
  events : List Event
deriving DecidableEq, Repr

/-! ## Reset values (R440, R441) -/

/-- The PPU after the reset sequence (R440), over the memories it leaves alone. -/
def Ppu.afterReset (vram palette oam : Memory) : Ppu :=
  { ctrl := 0x00, mask := 0x00, vblank := false, sprite0Hit := false, spriteOverflow := false,
    oamAddr := 0x00, scrollX := 0x00, scrollY := 0x00, vramAddr := 0x0000, w := false, readBuf := 0x00,
    scanline := 0, cycle := 0, nmiPending := false, frameComplete := false,
    vram := vram, palette := palette, oam := oam }

/-- An envelope after the reset sequence (R440). -/
def Envelope.afterReset : Envelope :=
  { start := false, loop := false, constant := false, volume := 0, divider := 0, decay := 0 }

/-- A sweep unit after the reset sequence (R440). -/
def Sweep.afterReset : Sweep :=
  { enabled := false, period := 0, negate := false, shift := 0, reload := false, divider := 0 }

/-- A pulse channel after the reset sequence (R440). -/
def Pulse.afterReset : Pulse :=
  { enabled := false, duty := 0, seqPos := 0, period := 0, timer := 0,
    env := Envelope.afterReset, sweep := Sweep.afterReset, length := 0 }

/-- The triangle channel after the reset sequence (R440). -/
def Triangle.afterReset : Triangle :=
  { enabled := false, control := false, linearReloadValue := 0, linear := 0, linearReload := false,
    period := 0, timer := 0, seqPos := 0, length := 0 }

/-- The frame counter after the reset sequence (R440). -/
def FrameCounter.afterReset : FrameCounter :=
  { mode := false, irqInhibit := false, step := 0, divider := 0, frameIrq := false }

/-- The APU after the reset sequence (R440). -/
def Apu.afterReset : Apu :=
  { pulse1 := Pulse.afterReset, pulse2 := Pulse.afterReset, tri := Triangle.afterReset,
    fc := FrameCounter.afterReset, apuOdd := false }

/-- The parameters of `State.reset`. DESIGN CHOICE (log 4): the spec makes them arguments; these are the ones
95_test_vectors.md fixes, over ROMs that list nothing. -/
def Params.reset : Params :=
  { prg := [], prgSize := .k16, chr := [], mirroring := .vertical, brkMode := .halt, irqDelivery := .off, observer := false }

/-- The machine right after reset: after the reset step of R9, its sequence and its tick batch of seven cycles included
(log 11; R440: `cyc = 7`, `cycle = 21`, `fc.divider = 7`, `apu_odd = 1`, pulse positions 3). The vector is read from a PRG that lists
nothing, so `PC = 0x0000` (log 1); `Tests.Slice0` shows that the reset step leaves exactly this state. -/
def State.reset : State :=
  { a := 0x00, x := 0x00, y := 0x00, sp := 0xFD, p := 0x24, pc := 0x0000,
    cyc := 7, halted := false, fault := none, dmaStall := 0, stepCycles := 7,
    ram := [], nmiPrev := false,
    ppu := { Ppu.afterReset [] [] [] with cycle := 21 },
    apu := { Apu.afterReset with
      pulse1 := { Pulse.afterReset with seqPos := 3 },
      pulse2 := { Pulse.afterReset with seqPos := 3 },
      fc := { FrameCounter.afterReset with divider := 7 },
      apuOdd := true },
    params := Params.reset, resetReq := false, stopReq := false, joypadReads := 0, events := [] }

/-- The launch state (R450): `reset_req` asserted for the first step; every register the reset sequence will write is 0 here
(DESIGN CHOICE, log 14). -/
def State.launch (params : Params) (ram vram palette oam : Memory) : State :=
  { a := 0, x := 0, y := 0, sp := 0, p := 0x20, pc := 0,
    cyc := 0, halted := false, fault := none, dmaStall := 0, stepCycles := 0,
    ram := ram, nmiPrev := false, ppu := Ppu.afterReset vram palette oam, apu := Apu.afterReset,
    params := params, resetReq := true, stopReq := false, joypadReads := 0, events := [] }

/-! ## Setters -/

namespace State

/-- `A <- v`. -/
def setA (s : State) (v : Byte) : State := { s with a := v }
/-- `X <- v`. -/
def setX (s : State) (v : Byte) : State := { s with x := v }
/-- `Y <- v`. -/
def setY (s : State) (v : Byte) : State := { s with y := v }
/-- `SP <- v`. -/
def setSP (s : State) (v : Byte) : State := { s with sp := v }
/-- `P <- v`. -/
def setP (s : State) (v : Byte) : State := { s with p := v }
/-- `PC <- v`. -/
def setPC (s : State) (v : Word) : State := { s with pc := v }
/-- `cyc <- n`. -/
def setCyc (s : State) (n : Nat) : State := { s with cyc := n }
/-- `halted <- b`. -/
def setHalted (s : State) (b : Bool) : State := { s with halted := b }
/-- `fault <- f`. -/
def setFault (s : State) (f : Option InvalidOpcode) : State := { s with fault := f }
/-- `dma_stall <- n`. -/
def setDmaStall (s : State) (n : Nat) : State := { s with dmaStall := n }
/-- Records the cost of the step. -/
def setStepCycles (s : State) (n : Nat) : State := { s with stepCycles := n }
/-- Replaces the work RAM. -/
def setRam (s : State) (m : Memory) : State := { s with ram := m }
/-- `nmi_prev <- b`. -/
def setNmiPrev (s : State) (b : Bool) : State := { s with nmiPrev := b }
/-- Replaces the PPU. -/
def setPpu (s : State) (u : Ppu) : State := { s with ppu := u }
/-- Replaces the APU. -/
def setApu (s : State) (u : Apu) : State := { s with apu := u }
/-- `reset_req`. -/
def setResetReq (s : State) (b : Bool) : State := { s with resetReq := b }
/-- `stop_req`. -/
def setStopReq (s : State) (b : Bool) : State := { s with stopReq := b }
/-- Counts the calls of `Joypad.read()`. -/
def setJoypadReads (s : State) (n : Nat) : State := { s with joypadReads := n }
/-- Replaces the list of this step's events. -/
def setEvents (s : State) (es : List Event) : State := { s with events := es }
/-- Sends one event out, after those already sent. -/
def emit (s : State) (e : Event) : State := { s with events := s.events ++ [e] }

end State

end Sys2Proof.Machine
end

