-- ==== Sys2Proof/Machine/Memory.lean ====
section
/-! DEFINITION. Byte memories as lists in one canonical form: reading, writing, and the form itself. -/

namespace Sys2Proof.Machine

/-- The byte at index `k`. Indexes rise along the list, so the search ends at the first larger one. -/
def Memory.read : Memory → Nat → Byte
  | [], _ => Config.unlistedByte
  | c :: m, k => if c.1 = k then c.2 else if k < c.1 then Config.unlistedByte else Memory.read m k

/-- The entry that holds `v` at `k`, none where `v` is what an unlisted index reads as. -/
def Memory.entry (k : Nat) (v : Byte) : Memory := if v = Config.unlistedByte then [] else [(k, v)]

/-- `m` with `v` stored at index `k`, in canonical form. (What follows an entry with key `k` has larger keys, so dropping the
keys up to `k` drops nothing from a canonical list.) -/
def Memory.write : Memory → Nat → Byte → Memory
  | [], k, v => Memory.entry k v
  | c :: m, k, v =>
    if k < c.1 then Memory.entry k v ++ c :: m
    else if c.1 = k then Memory.entry k v ++ m.dropWhile (fun d => d.1 ≤ k)
    else c :: Memory.write m k v

/-- The canonical form: indexes strictly rising, and no entry equal to what an unlisted index reads as. -/
abbrev Memory.wf (m : Memory) : Prop :=
  m.Pairwise (fun c d => c.1 < d.1) ∧ ∀ c ∈ m, c.2 ≠ Config.unlistedByte

/-- Every index lies below the size of the memory. -/
abbrev Memory.within (m : Memory) (size : Nat) : Prop := ∀ c ∈ m, c.1 < size

end Sys2Proof.Machine
end

