-- ==== Sys2Proof/Machine/Apu.lean ====
section
/-! DEFINITION. The APU: length counters, envelopes, sweep units, frame counter (R330 to R354), the three channels and the
register writes (R370 to R391). -/

namespace Sys2Proof.Machine

/-! ## Tables -/

/-- `LENGTH_TABLE` (R340). -/
def lengthTable : List Byte :=
  [10, 254, 20, 2, 40, 4, 80, 6, 160, 8, 60, 10, 14, 12, 26, 14] ++
  [12, 16, 24, 18, 48, 20, 96, 22, 192, 24, 72, 26, 16, 28, 32, 30]

/-- The length-table value of a register-3 byte, whose bits 7:3 are the index (R341). -/
def lengthValue (v : Byte) : Byte := lengthTable.getD (v.toNat / 8) 0

/-- `DUTY` (R375): four waveforms of eight steps. -/
def dutyTable : List (List Bool) :=
  [[false, true, false, false, false, false, false, false],
   [false, true, true, false, false, false, false, false],
   [false, true, true, true, true, false, false, false],
   [true, false, false, true, true, true, true, true]]

/-- `DUTY[duty][seq_pos]` (R375). -/
def dutyBit (duty : BitVec 2) (pos : BitVec 3) : Bool := (dutyTable.getD duty.toNat []).getD pos.toNat false

/-- `TRI[i]` (R384). -/
def triTable (i : Nat) : Nat := if i ≤ 15 then i else 31 - i

/-! ## Length counters -/

/-- `LengthClock(c)` (R342). -/
def lengthClock (halt : Bool) (counter : Byte) : Byte :=
  if !halt && counter ≠ 0 then counter - 1 else counter

/-- `LengthLoad(c, idx)` (R341): ignored while the channel is disabled. -/
def lengthLoad (enabled : Bool) (counter v : Byte) : Byte := if enabled then lengthValue v else counter

/-! ## Envelopes -/

/-- `EnvelopeClock(p)` (R346). -/
def Envelope.clock (e : Envelope) : Envelope :=
  if e.start then { e with start := false, decay := 15, divider := e.volume }
  else if e.divider = 0 then
    { e with divider := e.volume,
             decay := if e.decay ≠ 0 then e.decay - 1 else if e.loop then 15 else e.decay }
  else { e with divider := e.divider - 1 }

/-- `EnvelopeVolume(p)` (R348). -/
def Envelope.level (e : Envelope) : BitVec 4 := if e.constant then e.volume else e.decay

/-! ## Sweep units -/

/-- Which of the two pulse channels: they differ in the sweep unit's negate arithmetic only (R377). -/
inductive PulseId where
  | one
  | two
deriving DecidableEq, Repr

/-- `SweepTarget(p)` (R351), computed on integers. -/
def Pulse.sweepTarget (id : PulseId) (c : Pulse) : Int :=
  let change : Int := (c.period >>> c.sweep.shift.toNat).toNat
  if c.sweep.negate then
    max 0 ((c.period.toNat : Int) - change - (if id = .one then 1 else 0))
  else c.period.toNat + change

/-- `SweepMuting(p)` (R352). -/
def Pulse.sweepMuting (id : PulseId) (c : Pulse) : Bool := c.period.toNat < 8 || c.sweepTarget id > 0x7FF

/-- The first half of `SweepClock(p)` (R353): the period update. Where the change is 0, the period of a negating pulse 2 stays at 8 or
above, though R354 (c) says that it shrinks until it is below 8 (DEDUCED, log 18). -/
def Pulse.sweepUpdate (id : PulseId) (c : Pulse) : Pulse :=
  if c.sweep.divider = 0 ∧ c.sweep.enabled = true ∧ c.sweep.shift ≠ 0 ∧ c.sweepMuting id = false then
    { c with period := BitVec.ofInt 11 (c.sweepTarget id) }
  else c

/-- The second half of `SweepClock(p)` (R353): the divider. -/
def Sweep.clockDivider (w : Sweep) : Sweep :=
  if w.divider = 0 ∨ w.reload = true then { w with divider := w.period, reload := false }
  else { w with divider := w.divider - 1 }

/-- `SweepClock(p)` (R353). -/
def Pulse.sweepClock (id : PulseId) (c : Pulse) : Pulse :=
  let c := c.sweepUpdate id
  { c with sweep := c.sweep.clockDivider }

/-! ## Pulse channels -/

/-- `PulseTimerClock(p)` (R374). -/
def Pulse.timerClock (c : Pulse) : Pulse :=
  if c.timer = 0 then { c with timer := c.period, seqPos := c.seqPos + 1 } else { c with timer := c.timer - 1 }

/-- `PulseOutput(p)` (R376). -/
def Pulse.output (c : Pulse) : Nat :=
  if dutyBit c.duty c.seqPos = true ∧ c.length ≠ 0 ∧ 8 ≤ c.period.toNat then c.env.level.toNat else 0

/-- Pulse register 0 (R370). -/
def Pulse.writeControl (c : Pulse) (v : Byte) : Pulse :=
  { c with
    duty := v.extractLsb' 6 2
    env := { c.env with loop := v.getLsbD 5, constant := v.getLsbD 4, volume := v.extractLsb' 0 4 } }

/-- Pulse register 1 (R371). -/
def Pulse.writeSweep (c : Pulse) (v : Byte) : Pulse :=
  { c with
    sweep := { c.sweep with
      enabled := v.getLsbD 7, period := v.extractLsb' 4 3, negate := v.getLsbD 3, shift := v.extractLsb' 0 3,
      reload := true } }

/-- The low eight bits of an 11-bit period (R372, R381). -/
def periodLow (period : BitVec 11) (v : Byte) : BitVec 11 := (period &&& 0x700) ||| v.setWidth 11

/-- The high three bits of an 11-bit period (R373, R382). -/
def periodHigh (period : BitVec 11) (v : Byte) : BitVec 11 :=
  ((v &&& 0x07).setWidth 11 <<< 8) ||| (period &&& 0x0FF)

/-- Pulse register 2 (R372). -/
def Pulse.writeTimerLow (c : Pulse) (v : Byte) : Pulse := { c with period := periodLow c.period v }

/-- Pulse register 3, `PulseReg3Write` (R373). -/
def Pulse.writeTimerHigh (c : Pulse) (v : Byte) : Pulse :=
  { c with
    period := periodHigh c.period v
    length := lengthLoad c.enabled c.length v
    env := { c.env with start := true }
    seqPos := 0 }

/-- `PulseRegWrite(p, r, v)` (R370 to R373). -/
def Pulse.regWrite (c : Pulse) (r : BitVec 2) (v : Byte) : Pulse :=
  match r.toNat with
  | 0 => c.writeControl v
  | 1 => c.writeSweep v
  | 2 => c.writeTimerLow v
  | _ => c.writeTimerHigh v

/-- The channel's bit of a `0x4015` write (R387): disabling forces the length counter to 0 (R343). -/
def Pulse.setEnabled (c : Pulse) (b : Bool) : Pulse :=
  { c with enabled := b, length := if b then c.length else 0 }

/-- What a half-frame clock does to a pulse channel (R332): its length counter, then its sweep unit. -/
def Pulse.halfFrame (id : PulseId) (c : Pulse) : Pulse :=
  { c with length := lengthClock c.env.loop c.length }.sweepClock id

/-- What a quarter-frame clock does to a pulse channel (R332). -/
def Pulse.quarterFrame (c : Pulse) : Pulse := { c with env := c.env.clock }

/-! ## Triangle channel -/

/-- `TriTimerClock()` (R383). -/
def Triangle.timerClock (t : Triangle) : Triangle :=
  if t.timer = 0 then
    { t with timer := t.period, seqPos := if t.length ≠ 0 ∧ t.linear ≠ 0 then t.seqPos + 1 else t.seqPos }
  else { t with timer := t.timer - 1 }

/-- `LinearClock()` (R383), which is the triangle's quarter-frame clock. -/
def Triangle.linearClock (t : Triangle) : Triangle :=
  { t with
    linear := if t.linearReload then t.linearReloadValue else if t.linear ≠ 0 then t.linear - 1 else t.linear
    linearReload := if t.control then t.linearReload else false }

/-- `TriOutput()` (R384). -/
def Triangle.output (t : Triangle) : Nat :=
  if t.length = 0 ∨ t.linear = 0 then 0 else triTable t.seqPos.toNat

/-- `0x4008` (R380). -/
def Triangle.writeControl (t : Triangle) (v : Byte) : Triangle :=
  { t with control := v.getLsbD 7, linearReloadValue := v.extractLsb' 0 7 }

/-- `0x400A` (R381). -/
def Triangle.writeTimerLow (t : Triangle) (v : Byte) : Triangle := { t with period := periodLow t.period v }

/-- `0x400B`, `TriReg3Write` (R382). -/
def Triangle.writeTimerHigh (t : Triangle) (v : Byte) : Triangle :=
  { t with
    period := periodHigh t.period v
    length := lengthLoad t.enabled t.length v
    linearReload := true }

/-- The triangle's bit of a `0x4015` write (R387, R343). -/
def Triangle.setEnabled (t : Triangle) (b : Bool) : Triangle :=
  { t with enabled := b, length := if b then t.length else 0 }

/-- What a half-frame clock does to the triangle (R332): its length counter. -/
def Triangle.halfFrame (t : Triangle) : Triangle := { t with length := lengthClock t.control t.length }

namespace Apu

/-! ## Frame counter -/

/-- `QuarterFrame()` (R332). -/
def quarterFrame (u : Apu) : Apu :=
  { u with pulse1 := u.pulse1.quarterFrame, pulse2 := u.pulse2.quarterFrame, tri := u.tri.linearClock }

/-- `HalfFrame()` (R332). -/
def halfFrame (u : Apu) : Apu :=
  { u with pulse1 := u.pulse1.halfFrame .one, pulse2 := u.pulse2.halfFrame .two, tri := u.tri.halfFrame }

/-- A half-frame clock fires at this step (R331). -/
def halfAt (mode : Bool) (step : Nat) : Bool := step = 1 || step = 3 || (mode && step = 4)

/-- The number of steps of the sequence (R331). -/
def sequenceLength (mode : Bool) : Nat := if mode then 5 else 4

/-- What the sequencer does when a step fires (R331, R333, R335). -/
def frameStep (u : Apu) : Apu :=
  let s := u.fc.step
  let u := u.quarterFrame
  let u := if halfAt u.fc.mode s then u.halfFrame else u
  { u with fc := { u.fc with
      frameIrq := u.fc.frameIrq || (!u.fc.mode && s = 3 && !u.fc.irqInhibit)
      step := (s + 1) % sequenceLength u.fc.mode } }

/-- `FrameCounterTick()` (R333). -/
def frameCounterTick (u : Apu) : Apu :=
  if u.fc.divider + 1 = Config.frameStepPeriod then { u with fc := { u.fc with divider := 0 } }.frameStep
  else { u with fc := { u.fc with divider := u.fc.divider + 1 } }

/-- `FrameCounterWrite(v)`, a write to `0x4017` (R337). -/
def frameCounterWrite (u : Apu) (v : Byte) : Apu :=
  let u := { u with fc := { u.fc with
    mode := v.getLsbD 7
    irqInhibit := v.getLsbD 6
    frameIrq := if v.getLsbD 6 then false else u.fc.frameIrq
    step := 0
    divider := 0 } }
  if v.getLsbD 7 then u.quarterFrame.halfFrame else u

/-! ## The APU tick and the register writes -/

/-- The channel timers of one tick (R386): the triangle's always, the pulses' on every second tick. -/
def clockTimers (u : Apu) : Apu :=
  let u := { u with tri := u.tri.timerClock }
  if u.apuOdd then { u with pulse1 := u.pulse1.timerClock, pulse2 := u.pulse2.timerClock } else u

/-- `ApuTick()` (R386). -/
def tick (u : Apu) : Apu :=
  let u := u.clockTimers
  { u with apuOdd := !u.apuOdd }.frameCounterTick

/-- `n` APU ticks. -/
def ticks : Nat → Apu → Apu
  | 0, u => u
  | n + 1, u => (ticks n u).tick

/-- `ApuEnableWrite(v)`, a write to `0x4015` (R387). -/
def enableWrite (u : Apu) (v : Byte) : Apu :=
  { u with
    pulse1 := u.pulse1.setEnabled (v.getLsbD 0)
    pulse2 := u.pulse2.setEnabled (v.getLsbD 1)
    tri := u.tri.setEnabled (v.getLsbD 2) }

/-- The value of a `0x4015` read (R388). -/
def statusByte (u : Apu) : Byte :=
  BitVec.ofNat 8 (bit (u.pulse1.length ≠ 0) + bit (u.pulse2.length ≠ 0) * 2 + bit (u.tri.length ≠ 0) * 4 +
    bit u.fc.frameIrq * 0x40)

/-- `ApuStatusRead()` (R388). -/
def statusRead (u : Apu) : Byte × Apu := (u.statusByte, { u with fc := { u.fc with frameIrq := false } })

/-- `ApuRegWrite(a, v)` for `a` in `0x4000` to `0x4013` (R390), by the low five bits of the address; the other registers are
ignored (R389). -/
def regWrite (u : Apu) (r : BitVec 5) (v : Byte) : Apu :=
  if r.toNat < 4 then { u with pulse1 := u.pulse1.regWrite (r.setWidth 2) v }
  else if r.toNat < 8 then { u with pulse2 := u.pulse2.regWrite (r.setWidth 2) v }
  else if r.toNat = 0x08 then { u with tri := u.tri.writeControl v }
  else if r.toNat = 0x0A then { u with tri := u.tri.writeTimerLow v }
  else if r.toNat = 0x0B then { u with tri := u.tri.writeTimerHigh v }
  else u

end Apu

end Sys2Proof.Machine
end

