-- ==== Sys2Proof/Machine/Ppu.lean ====
section
/-! DEFINITION. The PPU register decoder (R270 to R294) and scanline timer (R310 to R317). -/

namespace Sys2Proof.Machine

/-! ## Address decode behind the data port -/

/-- `MirrorVram(a)` (R284): a nametable address as an index into `vram`. -/
def mirrorVram (mode : Mirroring) (a : BitVec 14) : Nat :=
  let v := (a &&& 0x2FFF).toNat - 0x2000
  let nt := v / 0x400
  match mode with
  | .vertical => if nt = 2 ∨ nt = 3 then v - 0x800 else v
  | .horizontal => if nt = 1 ∨ nt = 2 then v - 0x400 else if nt = 3 then v - 0x800 else v

/-- `PalIndex(a)` (R285): a palette address as an index into `palette`. -/
def palIndex (a : BitVec 14) : Nat :=
  let i := (a &&& 0x1F).toNat
  if i = 0x10 ∨ i = 0x14 ∨ i = 0x18 ∨ i = 0x1C then i - 0x10 else i

/-- What a PPU address selects (R288). -/
inductive VramTarget where
  | chr
  | nametable
  | palette
deriving DecidableEq, Repr

/-- The PPU address map (R288). -/
def vramTarget (a : BitVec 14) : VramTarget :=
  if a.toNat ≤ 0x1FFF then .chr else if a.toNat ≤ 0x3EFF then .nametable else .palette

namespace Ppu

/-- `nmi_enable` (R34). -/
def nmiEnable (u : Ppu) : Bool := u.ctrl.getLsbD 7

/-- `CtrlWrite(v)` (R271). -/
def ctrlWrite (u : Ppu) (v : Byte) : Ppu :=
  { u with ctrl := v, nmiPending := u.nmiPending || (!u.nmiEnable && v.getLsbD 7 && u.vblank) }

/-- Offset 1 write (R273). -/
def maskWrite (u : Ppu) (v : Byte) : Ppu := { u with mask := v }

/-- The status register's value (R36, R276). -/
def statusByte (u : Ppu) : Byte :=
  BitVec.ofNat 8 (bit u.vblank * 0x80 + bit u.sprite0Hit * 0x40 + bit u.spriteOverflow * 0x20)

/-- `StatusRead()` (R276). -/
def statusRead (u : Ppu) : Byte × Ppu := (u.statusByte, { u with vblank := false, w := false })

/-- Offset 3 write (R279). -/
def oamAddrWrite (u : Ppu) (v : Byte) : Ppu := { u with oamAddr := v }

/-- Offset 4 read (R281). -/
def oamDataRead (u : Ppu) : Byte := u.oam.read u.oamAddr.toNat

/-- `OamDataWrite(v)`, which is also `OamDmaByte` (R282). -/
def oamDataWrite (u : Ppu) (v : Byte) : Ppu :=
  { u with oam := u.oam.write u.oamAddr.toNat v, oamAddr := u.oamAddr + 1 }

/-- `ScrollWrite(v)` (R280). -/
def scrollWrite (u : Ppu) (v : Byte) : Ppu :=
  if u.w then { u with scrollY := v, w := false } else { u with scrollX := v, w := true }

/-- `AddrWrite(v)` (R283). -/
def addrWrite (u : Ppu) (v : Byte) : Ppu :=
  if u.w then { u with vramAddr := (u.vramAddr &&& 0x3F00) ||| v.setWidth 14, w := false }
  else { u with vramAddr := ((v &&& 0x3F).setWidth 14 <<< 8) ||| (u.vramAddr &&& 0x00FF), w := true }

/-- `AddrIncrement()` (R287). -/
def addrIncrement (u : Ppu) : Ppu :=
  { u with vramAddr := u.vramAddr + (if u.ctrl.getLsbD 2 then 32 else 1) }

/-- The byte behind the data port, whatever its target (R288). -/
def vramByte (cfg : Params) (u : Ppu) : Byte :=
  match vramTarget u.vramAddr with
  | .chr => cfg.chr.read u.vramAddr.toNat
  | .nametable => u.vram.read (mirrorVram cfg.mirroring u.vramAddr)
  | .palette => u.palette.read (palIndex u.vramAddr)

/-- `DataRead()` (R290, R291). -/
def dataRead (cfg : Params) (u : Ppu) : Byte × Ppu :=
  if vramTarget u.vramAddr = .palette then (u.vramByte cfg, u.addrIncrement)
  else (u.readBuf, { u with readBuf := u.vramByte cfg }.addrIncrement)

/-- `DataWrite(v)` (R289), less the diagnostic of a write to character ROM, which the bus emits. -/
def dataWrite (cfg : Params) (u : Ppu) (v : Byte) : Ppu :=
  (match vramTarget u.vramAddr with
    | .chr => u
    | .nametable => { u with vram := u.vram.write (mirrorVram cfg.mirroring u.vramAddr) v }
    | .palette => { u with palette := u.palette.write (palIndex u.vramAddr) v }).addrIncrement

/-! ## The scanline timer -/

/-- `EnterVblank()` (R313). -/
def enterVblank (u : Ppu) : Ppu :=
  { u with vblank := true, sprite0Hit := false, nmiPending := u.nmiPending || u.nmiEnable }

/-- `WrapFrame()` (R314). It clears a request that a control write raised earlier in the same step too, where R271 (e) and R411 say
that such a request is taken at the next step (DEDUCED, log 19). -/
def wrapFrame (u : Ppu) : Ppu :=
  { u with scanline := 0, nmiPending := false, sprite0Hit := false, vblank := false, frameComplete := true }

/-- The events of the scanline just entered (R311). -/
def enterScanline (u : Ppu) : Ppu :=
  if u.scanline = Config.vblankScanline then u.enterVblank
  else if u.scanline = Config.scanlinesPerFrame then u.wrapFrame
  else u

/-- `PpuDot()` (R311). -/
def dot (u : Ppu) : Ppu :=
  if u.cycle + 1 = Config.dotsPerScanline then { u with cycle := 0, scanline := u.scanline + 1 }.enterScanline
  else { u with cycle := u.cycle + 1 }

/-- `n` PPU cycles (R310). -/
def dots : Nat → Ppu → Ppu
  | 0, u => u
  | n + 1, u => (dots n u).dot

end Ppu

end Sys2Proof.Machine
end

