-- ==== Sys2Proof/Machine/Bus.lean ====
section
/-! DEFINITION. The memory address decoder: the CPU address map, bus reads and writes with every side effect, OAM DMA and the
tick driver (R80 to R121). -/

namespace Sys2Proof.Machine

/-! ## The address map -/

/-- The windows of the CPU address map (R87). -/
inductive Window where
  | ram
  | ppu
  | apuRegs
  | oamDma
  | apuStatus
  | joypad
  | frameCounter
  | unmapped
  | prg
deriving DecidableEq, Repr

/-- The window an address falls in, in the priority order of R88. -/
def windowOf (a : Word) : Window :=
  if a.toNat ≤ 0x1FFF then .ram
  else if a.toNat ≤ 0x3FFF then .ppu
  else if a.toNat ≤ 0x4013 then .apuRegs
  else if a.toNat = 0x4014 then .oamDma
  else if a.toNat = 0x4015 then .apuStatus
  else if a.toNat = 0x4016 then .joypad
  else if a.toNat = 0x4017 then .frameCounter
  else if a.toNat < 0x8000 then .unmapped
  else .prg

/-- The RAM index of an address in the RAM window (R91). -/
def ramIndex (a : Word) : Nat := (a &&& 0x07FF).toNat

/-- The PRG index of an address in the PRG window (R102). -/
def prgIndex (size : PrgSize) (a : Word) : Nat := (a.toNat - 0x8000) % Config.prgBytes size

/-- The byte that RAM or PRG ROM holds at an address, without a bus access; addresses of no memory hold 0 here. -/
def State.memByte (s : State) (a : Word) : Byte :=
  match windowOf a with
  | .ram => s.ram.read (ramIndex a)
  | .prg => s.params.prg.read (prgIndex s.params.prgSize a)
  | _ => 0

/-! ## Reads -/

/-- The canonical address of a PPU register (R270). -/
def ppuRegAddr (off : BitVec 3) : Word := 0x2000 + off.setWidth 16

/-- `PpuRegRead(off)` (R270). -/
def ppuRegRead (off : BitVec 3) (s : State) : Byte × State :=
  match off.toNat with
  | 2 => (s.ppu.statusRead.1, s.setPpu s.ppu.statusRead.2)
  | 4 => (s.ppu.oamDataRead, s)
  | 7 => ((s.ppu.dataRead s.params).1, s.setPpu (s.ppu.dataRead s.params).2)
  | _ => (Config.placeholder, s.emit (.diag .illegalRead (ppuRegAddr off) Config.placeholder))

/-- `BusRead(a)` (R88): the byte and the state its side effects leave. -/
def busRead (a : Word) (s : State) : Byte × State :=
  match windowOf a with
  | .ram => (s.ram.read (ramIndex a), s)
  | .ppu => ppuRegRead (a.setWidth 3) s
  | .apuRegs | .oamDma => (Config.placeholder, s.emit (.diag .illegalRead a Config.placeholder))
  | .apuStatus => (s.apu.statusRead.1, s.setApu s.apu.statusRead.2)
  | .joypad =>
    (Config.joypadByte s.joypadReads, (s.setJoypadReads (s.joypadReads + 1)).emit (.joypadRead s.joypadReads))
  | .frameCounter => (0x00, s)
  | .unmapped => (0x00, s.emit (.diag .unmappedAccess a 0x00))
  | .prg => (s.params.prg.read (prgIndex s.params.prgSize a), s)

/-! ## OAM DMA -/

/-- One byte of an OAM DMA: byte `i` of page `v` goes through the OAM data write (R115). -/
def oamDmaByte (v : Byte) (i : Nat) (s : State) : State :=
  let r := busRead (word v (BitVec.ofNat 8 i)) s
  r.2.setPpu (r.2.ppu.oamDataWrite r.1)

/-- The first `n` bytes of an OAM DMA, in order (R115). -/
def oamDmaCopy (v : Byte) : Nat → State → State
  | 0, s => s
  | n + 1, s => oamDmaByte v n (oamDmaCopy v n s)

/-- `OamDma(v)` (R115, R116). -/
def oamDma (v : Byte) (s : State) : State :=
  let s := oamDmaCopy v 256 s
  s.setDmaStall (513 + s.cyc % 2)

/-! ## Writes -/

/-- The diagnostic of a data-port write aimed at character ROM, whose address is the PPU address (R289, R292). -/
def chrWriteDiag (v : Byte) (s : State) : State :=
  if vramTarget s.ppu.vramAddr = .chr then s.emit (.diag .illegalWrite (s.ppu.vramAddr.setWidth 16) v) else s

/-- `PpuRegWrite(off, v)` (R270). -/
def ppuRegWrite (off : BitVec 3) (v : Byte) (s : State) : State :=
  match off.toNat with
  | 0 => s.setPpu (s.ppu.ctrlWrite v)
  | 1 => s.setPpu (s.ppu.maskWrite v)
  | 2 => s.emit (.diag .illegalWrite (ppuRegAddr off) v)
  | 3 => s.setPpu (s.ppu.oamAddrWrite v)
  | 4 => s.setPpu (s.ppu.oamDataWrite v)
  | 5 => s.setPpu (s.ppu.scrollWrite v)
  | 6 => s.setPpu (s.ppu.addrWrite v)
  | _ => (chrWriteDiag v s).setPpu (s.ppu.dataWrite s.params v)

/-- `BusWrite(a, v)` (R89). -/
def busWrite (a : Word) (v : Byte) (s : State) : State :=
  match windowOf a with
  | .ram => s.setRam (s.ram.write (ramIndex a) v)
  | .ppu => ppuRegWrite (a.setWidth 3) v s
  | .apuRegs => s.setApu (s.apu.regWrite (a.setWidth 5) v)
  | .oamDma => oamDma v s
  | .apuStatus => s.setApu (s.apu.enableWrite v)
  | .joypad => s.emit (.joypadWrite v)
  | .frameCounter => s.setApu (s.apu.frameCounterWrite v)
  | .unmapped => s.emit (.diag .unmappedAccess a v)
  | .prg => s.emit (.diag .illegalWrite a v)

/-! ## The tick driver -/

/-- One CPU cycle of device time (R120): three PPU dots, then one APU tick. -/
def tickCycle (s : State) : State := (s.setPpu s.ppu.dot.dot.dot).setApu s.apu.tick

/-- `n` CPU cycles of device time. -/
def tickCycles : Nat → State → State
  | 0, s => s
  | n + 1, s => tickCycle (tickCycles n s)

/-- `EdgeSample()` (R321) and the start of a batch, at which `frame_complete` is false (R315). -/
def edgeSample (s : State) : State :=
  (s.setNmiPrev s.ppu.nmiPending).setPpu { s.ppu with frameComplete := false }

/-- `EdgeCompare()` (R322). -/
def edgeCompare (s : State) : Bool := !s.nmiPrev && s.ppu.nmiPending

/-- The call of `FrameReady` where `EdgeCompare` is true (R322). -/
def notifyFrame (s : State) : State := if edgeCompare s then s.emit .frameReady else s

/-- `TickBatch(n)` (R120). -/
def tickBatch (n : Nat) (s : State) : State :=
  let s := tickCycles n (edgeSample s)
  notifyFrame (s.setCyc (s.cyc + n))

end Sys2Proof.Machine
end

