-- ==== Sys2Proof/Machine/Flags.lean ====
section
/-! DEFINITION. The status register's bits (R26 to R29) and every flag computation of the instruction rules. Each computation
takes the operand values and the old `P`, and gives the result byte and the new `P`. -/

namespace Sys2Proof.Machine

/-- The bits of `P` (R26). -/
inductive Flag where
  | c
  | z
  | i
  | d
  | b
  | u
  | v
  | n
deriving DecidableEq, Repr

/-- The position of a flag in `P` (R26). -/
def Flag.pos : Flag → Nat
  | .c => 0
  | .z => 1
  | .i => 2
  | .d => 3
  | .b => 4
  | .u => 5
  | .v => 6
  | .n => 7

/-- The value of a flag. -/
def getFlag (p : Byte) (f : Flag) : Bool := p.getLsbD f.pos

/-- `P` with one flag written and every other bit as it was. -/
def setFlag (p : Byte) (f : Flag) (v : Bool) : Byte :=
  if v then p ||| (1#8 <<< f.pos) else p &&& ~~~(1#8 <<< f.pos)

/-- `SetZN(v)` (R13). -/
def setZN (v p : Byte) : Byte := setFlag (setFlag p .z (v == 0)) .n (v.getLsbD 7)

/-- The copy of `P` that PHP and BRK push: B and U set (R28). -/
def pushedByInstruction (p : Byte) : Byte := p ||| 0x30

/-- The copy of `P` that NMI and IRQ entry push: B clear, U set (R28, R415). -/
def pushedByInterrupt (p : Byte) : Byte := (p &&& 0xEF) ||| 0x20

/-- What PLP and RTI load into `P` from a popped byte: B clear, U set (R28). -/
def loadedStatus (m : Byte) : Byte := (m &&& 0xEF) ||| 0x20

/-! ## Add, subtract, compare, test (R181 to R190) -/

/-- ADC (R181): the result of `A + M + C`, and `P` with C, V, Z, N written. -/
def adcOp (a m p : Byte) : Byte × Byte :=
  let sum := a.toNat + m.toNat + bit (getFlag p .c)
  let r := BitVec.ofNat 8 sum
  let overflow := ((m ^^^ r) &&& (r ^^^ a) &&& 0x80) != 0
  (r, setZN r (setFlag (setFlag p .c (255 < sum)) .v overflow))

/-- SBC (R182): ADC with the one's complement of the operand. -/
def sbcOp (a m p : Byte) : Byte × Byte := adcOp a (~~~m) p

/-- CMP, CPX, CPY (R187 to R189): the new `P`. -/
def compareOp (r m p : Byte) : Byte :=
  setFlag (setFlag (setFlag p .c (m.toNat ≤ r.toNat)) .z (r == m)) .n ((r - m).getLsbD 7)

/-- BIT (R190): the new `P`. -/
def bitOp (a m p : Byte) : Byte :=
  setFlag (setFlag (setFlag p .z (a &&& m == 0)) .n (m.getLsbD 7)) .v (m.getLsbD 6)

/-! ## Increment, decrement (R191 to R196) -/

/-- INC, INX, INY: the result and `P` with Z, N written. -/
def incOp (m p : Byte) : Byte × Byte := (m + 1, setZN (m + 1) p)

/-- DEC, DEX, DEY: the result and `P` with Z, N written. -/
def decOp (m p : Byte) : Byte × Byte := (m - 1, setZN (m - 1) p)

/-! ## Shifts and rotates (R211 to R214) -/

/-- ASL (R211). -/
def aslOp (v p : Byte) : Byte × Byte :=
  let r := v <<< 1
  (r, setZN r (setFlag p .c (v.getLsbD 7)))

/-- LSR (R212). -/
def lsrOp (v p : Byte) : Byte × Byte :=
  let r := v >>> 1
  (r, setZN r (setFlag p .c (v.getLsbD 0)))

/-- ROL (R213): the old carry enters bit 0. -/
def rolOp (v p : Byte) : Byte × Byte :=
  let r := (v <<< 1) ||| BitVec.ofNat 8 (bit (getFlag p .c))
  (r, setZN r (setFlag p .c (v.getLsbD 7)))

/-- ROR (R214): the old carry enters bit 7. -/
def rorOp (v p : Byte) : Byte × Byte :=
  let r := (v >>> 1) ||| (BitVec.ofNat 8 (bit (getFlag p .c)) <<< 7)
  (r, setZN r (setFlag p .c (v.getLsbD 0)))

end Sys2Proof.Machine
end

