-- ==== Sys2Proof/Machine/Ops.lean ====
section
/-! DEFINITION. The shared operations over memory and registers: stack, pointers, the end of an instruction, taking an
interrupt and returning from one, arbitration, reset and stop. -/

namespace Sys2Proof.Machine

/-- What an instruction's meaning answers. -/
abbrev Result := Host.Outcome State Fault Refusal

/-! ## Two-byte reads (R12, R13) -/

/-- `MemRead(addr, 2)` (R12): low byte first, the second address modulo 65536. -/
def read16 (a : Word) (s : State) : Word × State :=
  let lo := busRead a s
  let hi := busRead (a + 1) lo.2
  (word hi.1 lo.1, hi.2)

/-- `ReadZP16(p)` (R13): the high byte's address wraps in the zero page. -/
def readZP16 (p : Byte) (s : State) : Word × State :=
  let lo := busRead (zext16 p) s
  let hi := busRead (zext16 (p + 1)) lo.2
  (word hi.1 lo.1, hi.2)

/-- `ReadBug16(a)` (R13): the high byte's address wraps in the pointer's page. -/
def readBug16 (a : Word) (s : State) : Word × State :=
  let lo := busRead a s
  let hi := busRead (word (hiByte a) (loByte a + 1)) lo.2
  (word hi.1 lo.1, hi.2)

/-! ## The stack (R13, R21) -/

/-- The address of the stack byte a stack pointer selects (R21). -/
def stackAddr (sp : Byte) : Word := Config.stackBase + zext16 sp

/-- `Push(v)` (R13). -/
def push (v : Byte) (s : State) : State :=
  let s := busWrite (stackAddr s.sp) v s
  s.setSP (s.sp - 1)

/-- `Pop()` (R13). -/
def pop (s : State) : Byte × State :=
  let s := s.setSP (s.sp + 1)
  busRead (stackAddr s.sp) s

/-- `Push16(w)` (R13): high byte first. -/
def push16 (w : Word) (s : State) : State := push (loByte w) (push (hiByte w) s)

/-- `Pop16()` (R13): low byte first. -/
def pop16 (s : State) : Word × State :=
  let lo := pop s
  let hi := pop lo.2
  (word hi.1 lo.1, hi.2)

/-! ## The end of an instruction (R25, R131) -/

/-- An instruction that has written `PC` itself ends with its cost recorded: `cycles` and the stall of an OAM DMA (R131). -/
def complete (cycles : Nat) (s : State) : Result := .next (s.setStepCycles (cycles + s.dmaStall))

/-- An instruction that does not write `PC` ends at `u16(pc0 + len)` (R25). -/
def advance (len cycles : Nat) (s : State) : Result := complete cycles (s.setPC (s.pc + BitVec.ofNat 16 len))

/-! ## Taking an interrupt and returning from one (R407, R415, R421) -/

/-- The interrupt kinds the arbiter takes (R407). -/
inductive Interrupt where
  | nmi
  | irq
deriving DecidableEq, Repr

/-- `VEC[k]` (R407). -/
def Interrupt.vector : Interrupt → Word
  | .nmi => Config.vecNmi
  | .irq => Config.vecIrq

/-- The one path into a handler (R407, R415, R226): push the return address and a copy of the status, set I, load `PC` from the
vector. -/
def enterHandler (ret : Word) (status : Byte) (vector : Word) (s : State) : State :=
  let s := push status (push16 ret s)
  let s := s.setP (setFlag s.p .i true)
  let target := read16 vector s
  target.2.setPC target.1

/-- Taking the NMI acknowledges the request (R416). -/
def acknowledge (k : Interrupt) (s : State) : State :=
  match k with
  | .nmi => s.setPpu { s.ppu with nmiPending := false }
  | .irq => s

/-- `InterruptEntry(k)` (R415). The acknowledgement touches nothing the pushes and the vector reads touch
(log 13). -/
def interruptEntry (k : Interrupt) (s : State) : State :=
  enterHandler s.pc (pushedByInterrupt s.p) k.vector (acknowledge k s)

/-- The return from a handler (R225, R421): pop the status, then `PC`, low byte first, with no adjustment. -/
def returnFromInterrupt (s : State) : State :=
  let m := pop s
  let ret := pop16 (m.2.setP (loadedStatus m.1))
  ret.2.setPC ret.1

/-- `Arbitrate()` (R413). -/
def arbitrate (s : State) : Option Interrupt :=
  if s.ppu.nmiPending then some .nmi
  else if s.params.irqDelivery = .on ∧ s.apu.fc.frameIrq = true ∧ getFlag s.p .i = false then some .irq
  else none

/-! ## Reset and stop (R440, R434) -/

/-- The registers of `ResetSequence()` (R440), before the vector is read. The memories are left alone. `P` becomes 0x24, so `D`
is cleared, as R26, R440 and D6 have it; R29 and D10 say that reset does not change `D` (DESIGN CHOICE, log 17). -/
def resetRegisters (s : State) : State :=
  { s with
    a := 0x00, x := 0x00, y := 0x00, sp := 0xFD, p := 0x24
    halted := false, fault := none, cyc := 0, dmaStall := 0
    nmiPrev := false
    ppu := Ppu.afterReset s.ppu.vram s.ppu.palette s.ppu.oam
    apu := Apu.afterReset }

/-- `ResetSequence()` (R440). -/
def resetSequence (s : State) : State :=
  let target := read16 Config.vecReset (resetRegisters s)
  target.2.setPC target.1

/-- The sampling of `stop_req` between steps (R9, R434); the request is consumed. -/
def sampleStop (s : State) : State := if s.stopReq then (s.setHalted true).setStopReq false else s

/-- The call of the observer after an instruction (R432). -/
def notifyObserver (s : State) : State := if s.params.observer then s.emit .observer else s

/-- The machine is stopped: it has failed (R401) or it is halted (R433), and without reset no step happens (R9). -/
def State.stopped (s : State) : Bool := s.fault.isSome || s.halted

/-! ## The parts of a step (R9) -/

/-- A step starts with nothing sent out yet and no stall (R116, R31). -/
def beginStep (s : State) : State := (s.setEvents []).setDmaStall 0

/-- The step in which `reset_req` is asserted (R9, R440); the request is consumed. -/
def resetStep (s : State) : State :=
  tickBatch Config.resetCycles ((resetSequence ((beginStep s).setResetReq false)).setStepCycles Config.resetCycles)

/-- An interrupt-entry step (R9, R415). -/
def interruptStep (k : Interrupt) (s : State) : State :=
  tickBatch Config.intCycles ((interruptEntry k (beginStep s)).setStepCycles Config.intCycles)

/-- The end of a step that executed an instruction (R9, R432): its tick batch, none where it cost 0 cycles (R226; DEDUCED,
log 8), then the observer. -/
def afterInstruction (s : State) : State :=
  notifyObserver (if s.stepCycles = 0 then s else tickBatch s.stepCycles s)

end Sys2Proof.Machine
end

