-- ==== Sys2Proof/Machine/Operands.lean ====
section
/-! DEFINITION. Operand resolution (R134 to R146) and what the instruction rules do with a resolved operand. The operand bytes
of the instruction have been fetched; pointers are read here, through the bus. -/

namespace Sys2Proof.Machine

/-- A memory operand (30_encoding.md section 2): its effective address, and whether indexing left the page. -/
structure Operand where
  ea : Word
  crossed : Bool
deriving DecidableEq, Repr

/-- A resolved operand and the state its pointer reads leave. -/
abbrev Resolved := Operand × State

/-- Zero page (R137). -/
def zeroPage (d : Byte) (s : State) : Resolved := (⟨zext16 d, false⟩, s)

/-- Zero page,X (R138): the index addition wraps in the zero page. -/
def zeroPageX (d : Byte) (s : State) : Resolved := (⟨zext16 (d + s.x), false⟩, s)

/-- Zero page,Y (R139). -/
def zeroPageY (d : Byte) (s : State) : Resolved := (⟨zext16 (d + s.y), false⟩, s)

/-- Absolute (R140). -/
def absolute (a : Word) (s : State) : Resolved := (⟨a, false⟩, s)

/-- A base address plus an index register, modulo 65536, with the page test (R141). -/
def indexed (base : Word) (index : Byte) : Operand :=
  ⟨base + zext16 index, pageCross base (base + zext16 index)⟩

/-- Absolute,X (R141). -/
def absoluteX (base : Word) (s : State) : Resolved := (indexed base s.x, s)

/-- Absolute,Y (R142). -/
def absoluteY (base : Word) (s : State) : Resolved := (indexed base s.y, s)

/-- (Indirect,X) (R143). -/
def indirectX (d : Byte) (s : State) : Resolved :=
  let ptr := readZP16 (d + s.x) s
  (⟨ptr.1, false⟩, ptr.2)

/-- (Indirect),Y (R144). -/
def indirectY (d : Byte) (s : State) : Resolved :=
  let base := readZP16 d s
  (indexed base.1 s.y, base.2)

/-- Indirect (R145), used by JMP: the same-page pointer bug. -/
def indirect (ptr : Word) (s : State) : Resolved :=
  let target := readBug16 ptr s
  (⟨target.1, false⟩, target.2)

/-- The branch target of relative mode (R146): relative to the next instruction. -/
def branchTarget (pc0 : Word) (off : Byte) : Word := pc0 + 2 + sext16 off

/-! ## The shapes of the instruction rules -/

/-- The extra cycle of an indexed read that left its page (R466). -/
def pagePenalty (opnd : Operand) : Nat := if opnd.crossed then 1 else 0

/-- A read instruction whose cost has no page penalty (R160, R180): one read of the operand, then the effect. -/
def readOperand (len cycles : Nat) (opnd : Resolved) (effect : Byte → State → State) : Result :=
  let m := busRead opnd.1.ea opnd.2
  advance len cycles (effect m.1 m.2)

/-- A read instruction in a mode with a page penalty (R466). -/
def readIndexed (len cycles : Nat) (opnd : Resolved) (effect : Byte → State → State) : Result :=
  readOperand len (cycles + pagePenalty opnd.1) opnd effect

/-- An immediate operand is the byte after the opcode, read once (R136): the fetch has read it. -/
def immediate (v : Byte) (effect : Byte → State → State) (s : State) : Result := advance 2 2 (effect v s)

/-- A store (R160): exactly one write, nothing read. -/
def store (len cycles : Nat) (opnd : Resolved) (v : Byte) : Result := advance len cycles (busWrite opnd.1.ea v opnd.2)

/-- A read-modify-write instruction on memory (R84, R180, R210): one read, then one write to the same address. The operation
takes the byte read and `P`, and gives the byte to write and the new `P`. -/
def modify (len cycles : Nat) (opnd : Resolved) (op : Byte → Byte → Byte × Byte) : Result :=
  let m := busRead opnd.1.ea opnd.2
  let r := op m.1 m.2.p
  advance len cycles ((busWrite opnd.1.ea r.1 m.2).setP r.2)

/-- A read-modify-write instruction on the accumulator (R135, R210). -/
def modifyA (op : Byte → Byte → Byte × Byte) (s : State) : Result :=
  let r := op s.a s.p
  advance 1 2 ((s.setA r.1).setP r.2)

/-- `Branch(cond)` (R224). -/
def branch (cond : Bool) (off : Byte) (s : State) : Result :=
  let next := s.pc + 2
  let target := branchTarget s.pc off
  if cond then complete (if pageCross next target then 4 else 3) (s.setPC target)
  else complete 2 (s.setPC next)

/-! ## Effects on the registers -/

/-- `A <- v; SetZN(A)` (R161). -/
def loadA (v : Byte) (s : State) : State := (s.setA v).setP (setZN v s.p)

/-- `X <- v; SetZN(X)` (R162). -/
def loadX (v : Byte) (s : State) : State := (s.setX v).setP (setZN v s.p)

/-- `Y <- v; SetZN(Y)` (R163). -/
def loadY (v : Byte) (s : State) : State := (s.setY v).setP (setZN v s.p)

/-- The accumulator and `P` become a computed pair. -/
def setAP (r : Byte × Byte) (s : State) : State := (s.setA r.1).setP r.2

/-- ADC's effect (R181). -/
def addA (m : Byte) (s : State) : State := setAP (adcOp s.a m s.p) s

/-- SBC's effect (R182). -/
def subA (m : Byte) (s : State) : State := setAP (sbcOp s.a m s.p) s

/-- AND's effect (R184). -/
def andA (m : Byte) (s : State) : State := loadA (s.a &&& m) s

/-- ORA's effect (R185). -/
def orA (m : Byte) (s : State) : State := loadA (s.a ||| m) s

/-- EOR's effect (R186). -/
def eorA (m : Byte) (s : State) : State := loadA (s.a ^^^ m) s

/-- CMP's effect (R187). -/
def compareA (m : Byte) (s : State) : State := s.setP (compareOp s.a m s.p)

/-- CPX's effect (R188). -/
def compareX (m : Byte) (s : State) : State := s.setP (compareOp s.x m s.p)

/-- CPY's effect (R189). -/
def compareY (m : Byte) (s : State) : State := s.setP (compareOp s.y m s.p)

/-- BIT's effect (R190). -/
def testA (m : Byte) (s : State) : State := s.setP (bitOp s.a m s.p)

end Sys2Proof.Machine
end

