-- ==== Sys2Proof/Machine/Arithmetic.lean ====
section
/-! DEFINITION. Arithmetic, logic, compare, bit test, increment and decrement (R180 to R196). One meaning per opcode; lengths and cycles from R465 and the rule's own table. -/

namespace Sys2Proof.Machine

/-- `ADC ($nn,X)`, opcode `61` (R181, R143). -/
def execAdcIndX (d : Byte) (s : State) : Result := readOperand 2 6 (indirectX d s) addA

/-- `ADC $nn`, opcode `65` (R181, R137). -/
def execAdcZp (d : Byte) (s : State) : Result := readOperand 2 3 (zeroPage d s) addA

/-- `ADC #$nn`, opcode `69` (R181, R136). -/
def execAdcImm (v : Byte) (s : State) : Result := immediate v addA s

/-- `ADC $nnnn`, opcode `6D` (R181, R140). -/
def execAdcAbs (a : Word) (s : State) : Result := readOperand 3 4 (absolute a s) addA

/-- `ADC ($nn),Y`, opcode `71` (R181, R144). -/
def execAdcIndY (d : Byte) (s : State) : Result := readIndexed 2 5 (indirectY d s) addA

/-- `ADC $nn,X`, opcode `75` (R181, R138). -/
def execAdcZpX (d : Byte) (s : State) : Result := readOperand 2 4 (zeroPageX d s) addA

/-- `ADC $nnnn,Y`, opcode `79` (R181, R142). -/
def execAdcAbsY (base : Word) (s : State) : Result := readIndexed 3 4 (absoluteY base s) addA

/-- `ADC $nnnn,X`, opcode `7D` (R181, R141). -/
def execAdcAbsX (base : Word) (s : State) : Result := readIndexed 3 4 (absoluteX base s) addA

/-- `SBC ($nn,X)`, opcode `E1` (R182, R143). -/
def execSbcIndX (d : Byte) (s : State) : Result := readOperand 2 6 (indirectX d s) subA

/-- `SBC $nn`, opcode `E5` (R182, R137). -/
def execSbcZp (d : Byte) (s : State) : Result := readOperand 2 3 (zeroPage d s) subA

/-- `SBC #$nn`, opcode `E9` (R182, R136). -/
def execSbcImm (v : Byte) (s : State) : Result := immediate v subA s

/-- `SBC $nnnn`, opcode `ED` (R182, R140). -/
def execSbcAbs (a : Word) (s : State) : Result := readOperand 3 4 (absolute a s) subA

/-- `SBC ($nn),Y`, opcode `F1` (R182, R144). -/
def execSbcIndY (d : Byte) (s : State) : Result := readIndexed 2 5 (indirectY d s) subA

/-- `SBC $nn,X`, opcode `F5` (R182, R138). -/
def execSbcZpX (d : Byte) (s : State) : Result := readOperand 2 4 (zeroPageX d s) subA

/-- `SBC $nnnn,Y`, opcode `F9` (R182, R142). -/
def execSbcAbsY (base : Word) (s : State) : Result := readIndexed 3 4 (absoluteY base s) subA

/-- `SBC $nnnn,X`, opcode `FD` (R182, R141). -/
def execSbcAbsX (base : Word) (s : State) : Result := readIndexed 3 4 (absoluteX base s) subA

/-- `AND ($nn,X)`, opcode `21` (R184, R143). -/
def execAndIndX (d : Byte) (s : State) : Result := readOperand 2 6 (indirectX d s) andA

/-- `AND $nn`, opcode `25` (R184, R137). -/
def execAndZp (d : Byte) (s : State) : Result := readOperand 2 3 (zeroPage d s) andA

/-- `AND #$nn`, opcode `29` (R184, R136). -/
def execAndImm (v : Byte) (s : State) : Result := immediate v andA s

/-- `AND $nnnn`, opcode `2D` (R184, R140). -/
def execAndAbs (a : Word) (s : State) : Result := readOperand 3 4 (absolute a s) andA

/-- `AND ($nn),Y`, opcode `31` (R184, R144). -/
def execAndIndY (d : Byte) (s : State) : Result := readIndexed 2 5 (indirectY d s) andA

/-- `AND $nn,X`, opcode `35` (R184, R138). -/
def execAndZpX (d : Byte) (s : State) : Result := readOperand 2 4 (zeroPageX d s) andA

/-- `AND $nnnn,Y`, opcode `39` (R184, R142). -/
def execAndAbsY (base : Word) (s : State) : Result := readIndexed 3 4 (absoluteY base s) andA

/-- `AND $nnnn,X`, opcode `3D` (R184, R141). -/
def execAndAbsX (base : Word) (s : State) : Result := readIndexed 3 4 (absoluteX base s) andA

/-- `ORA ($nn,X)`, opcode `01` (R185, R143). -/
def execOraIndX (d : Byte) (s : State) : Result := readOperand 2 6 (indirectX d s) orA

/-- `ORA $nn`, opcode `05` (R185, R137). -/
def execOraZp (d : Byte) (s : State) : Result := readOperand 2 3 (zeroPage d s) orA

/-- `ORA #$nn`, opcode `09` (R185, R136). -/
def execOraImm (v : Byte) (s : State) : Result := immediate v orA s

/-- `ORA $nnnn`, opcode `0D` (R185, R140). -/
def execOraAbs (a : Word) (s : State) : Result := readOperand 3 4 (absolute a s) orA

/-- `ORA ($nn),Y`, opcode `11` (R185, R144). -/
def execOraIndY (d : Byte) (s : State) : Result := readIndexed 2 5 (indirectY d s) orA

/-- `ORA $nn,X`, opcode `15` (R185, R138). -/
def execOraZpX (d : Byte) (s : State) : Result := readOperand 2 4 (zeroPageX d s) orA

/-- `ORA $nnnn,Y`, opcode `19` (R185, R142). -/
def execOraAbsY (base : Word) (s : State) : Result := readIndexed 3 4 (absoluteY base s) orA

/-- `ORA $nnnn,X`, opcode `1D` (R185, R141). -/
def execOraAbsX (base : Word) (s : State) : Result := readIndexed 3 4 (absoluteX base s) orA

/-- `EOR ($nn,X)`, opcode `41` (R186, R143). -/
def execEorIndX (d : Byte) (s : State) : Result := readOperand 2 6 (indirectX d s) eorA

/-- `EOR $nn`, opcode `45` (R186, R137). -/
def execEorZp (d : Byte) (s : State) : Result := readOperand 2 3 (zeroPage d s) eorA

/-- `EOR #$nn`, opcode `49` (R186, R136). -/
def execEorImm (v : Byte) (s : State) : Result := immediate v eorA s

/-- `EOR $nnnn`, opcode `4D` (R186, R140). -/
def execEorAbs (a : Word) (s : State) : Result := readOperand 3 4 (absolute a s) eorA

/-- `EOR ($nn),Y`, opcode `51` (R186, R144). -/
def execEorIndY (d : Byte) (s : State) : Result := readIndexed 2 5 (indirectY d s) eorA

/-- `EOR $nn,X`, opcode `55` (R186, R138). -/
def execEorZpX (d : Byte) (s : State) : Result := readOperand 2 4 (zeroPageX d s) eorA

/-- `EOR $nnnn,Y`, opcode `59` (R186, R142). -/
def execEorAbsY (base : Word) (s : State) : Result := readIndexed 3 4 (absoluteY base s) eorA

/-- `EOR $nnnn,X`, opcode `5D` (R186, R141). -/
def execEorAbsX (base : Word) (s : State) : Result := readIndexed 3 4 (absoluteX base s) eorA

/-- `CMP ($nn,X)`, opcode `C1` (R187, R143). -/
def execCmpIndX (d : Byte) (s : State) : Result := readOperand 2 6 (indirectX d s) compareA

/-- `CMP $nn`, opcode `C5` (R187, R137). -/
def execCmpZp (d : Byte) (s : State) : Result := readOperand 2 3 (zeroPage d s) compareA

/-- `CMP #$nn`, opcode `C9` (R187, R136). -/
def execCmpImm (v : Byte) (s : State) : Result := immediate v compareA s

/-- `CMP $nnnn`, opcode `CD` (R187, R140). -/
def execCmpAbs (a : Word) (s : State) : Result := readOperand 3 4 (absolute a s) compareA

/-- `CMP ($nn),Y`, opcode `D1` (R187, R144). -/
def execCmpIndY (d : Byte) (s : State) : Result := readIndexed 2 5 (indirectY d s) compareA

/-- `CMP $nn,X`, opcode `D5` (R187, R138). -/
def execCmpZpX (d : Byte) (s : State) : Result := readOperand 2 4 (zeroPageX d s) compareA

/-- `CMP $nnnn,Y`, opcode `D9` (R187, R142). -/
def execCmpAbsY (base : Word) (s : State) : Result := readIndexed 3 4 (absoluteY base s) compareA

/-- `CMP $nnnn,X`, opcode `DD` (R187, R141). -/
def execCmpAbsX (base : Word) (s : State) : Result := readIndexed 3 4 (absoluteX base s) compareA

/-- `CPX #$nn`, opcode `E0` (R188, R136). -/
def execCpxImm (v : Byte) (s : State) : Result := immediate v compareX s

/-- `CPX $nn`, opcode `E4` (R188, R137). -/
def execCpxZp (d : Byte) (s : State) : Result := readOperand 2 3 (zeroPage d s) compareX

/-- `CPX $nnnn`, opcode `EC` (R188, R140). -/
def execCpxAbs (a : Word) (s : State) : Result := readOperand 3 4 (absolute a s) compareX

/-- `CPY #$nn`, opcode `C0` (R189, R136). -/
def execCpyImm (v : Byte) (s : State) : Result := immediate v compareY s

/-- `CPY $nn`, opcode `C4` (R189, R137). -/
def execCpyZp (d : Byte) (s : State) : Result := readOperand 2 3 (zeroPage d s) compareY

/-- `CPY $nnnn`, opcode `CC` (R189, R140). -/
def execCpyAbs (a : Word) (s : State) : Result := readOperand 3 4 (absolute a s) compareY

/-- `BIT $nn`, opcode `24` (R190, R137). -/
def execBitZp (d : Byte) (s : State) : Result := readOperand 2 3 (zeroPage d s) testA

/-- `BIT $nnnn`, opcode `2C` (R190, R140). -/
def execBitAbs (a : Word) (s : State) : Result := readOperand 3 4 (absolute a s) testA

/-- `INC $nn`, opcode `E6` (R191, R137). -/
def execIncZp (d : Byte) (s : State) : Result := modify 2 5 (zeroPage d s) incOp

/-- `INC $nnnn`, opcode `EE` (R191, R140). -/
def execIncAbs (a : Word) (s : State) : Result := modify 3 6 (absolute a s) incOp

/-- `INC $nn,X`, opcode `F6` (R191, R138). -/
def execIncZpX (d : Byte) (s : State) : Result := modify 2 6 (zeroPageX d s) incOp

/-- `INC $nnnn,X`, opcode `FE` (R191, R141). -/
def execIncAbsX (base : Word) (s : State) : Result := modify 3 7 (absoluteX base s) incOp

/-- `DEC $nn`, opcode `C6` (R192, R137). -/
def execDecZp (d : Byte) (s : State) : Result := modify 2 5 (zeroPage d s) decOp

/-- `DEC $nnnn`, opcode `CE` (R192, R140). -/
def execDecAbs (a : Word) (s : State) : Result := modify 3 6 (absolute a s) decOp

/-- `DEC $nn,X`, opcode `D6` (R192, R138). -/
def execDecZpX (d : Byte) (s : State) : Result := modify 2 6 (zeroPageX d s) decOp

/-- `DEC $nnnn,X`, opcode `DE` (R192, R141). -/
def execDecAbsX (base : Word) (s : State) : Result := modify 3 7 (absoluteX base s) decOp

/-- `INX`, opcode `E8` (R193, R134). -/
def execInx (s : State) : Result := advance 1 2 (loadX (s.x + 1) s)

/-- `INY`, opcode `C8` (R194, R134). -/
def execIny (s : State) : Result := advance 1 2 (loadY (s.y + 1) s)

/-- `DEX`, opcode `CA` (R195, R134). -/
def execDex (s : State) : Result := advance 1 2 (loadX (s.x - 1) s)

/-- `DEY`, opcode `88` (R196, R134). -/
def execDey (s : State) : Result := advance 1 2 (loadY (s.y - 1) s)

end Sys2Proof.Machine
end

