-- ==== Sys2Proof/Machine/Control.lean ====
section
/-! DEFINITION. Control flow, software interrupt, no-operation (R220 to R235). One meaning per opcode; lengths and cycles from R465 and the rule's own table. -/

namespace Sys2Proof.Machine

/-- `JMP $nnnn`, opcode `4C` (R221, R140). -/
def execJmpAbs (target : Word) (s : State) : Result := complete 3 (s.setPC target)

/-- `JMP ($nnnn)`, opcode `6C` (R221, R145). -/
def execJmpInd (ptr : Word) (s : State) : Result :=
  let target := indirect ptr s
  complete 5 (target.2.setPC target.1.ea)

/-- `JSR $nnnn`, opcode `20` (R222, R140). The pushed address is that of the last byte of the JSR. -/
def execJsrAbs (target : Word) (s : State) : Result := complete 6 ((push16 (s.pc + 2) s).setPC target)

/-- `RTS`, opcode `60` (R223, R134). The popped address plus 1. -/
def execRts (s : State) : Result :=
  let ret := pop16 s
  complete 6 (ret.2.setPC (ret.1 + 1))

/-- `RTI`, opcode `40` (R225, R134). -/
def execRti (s : State) : Result := complete 6 (returnFromInterrupt s)

/-- `BRK`, opcode `00` (R226, R134). In halt mode it costs 0 cycles and no tick batch follows; in interrupt mode it takes the shared path into a handler. -/
def execBrk (s : State) : Result :=
  match s.params.brkMode with
  | .halt => .next (((s.setHalted true).setPC (s.pc + 1)).setStepCycles 0)
  | .interrupt => complete Config.intCycles (enterHandler (s.pc + 2) (pushedByInstruction s.p) Config.vecIrq s)

/-- `NOP`, opcode `EA` (R227, R134). -/
def execNop (s : State) : Result := advance 1 2 s

/-- `BCC label`, opcode `90` (R228, R146). -/
def execBcc (off : Byte) (s : State) : Result := branch (!getFlag s.p .c) off s

/-- `BCS label`, opcode `B0` (R229, R146). -/
def execBcs (off : Byte) (s : State) : Result := branch (getFlag s.p .c) off s

/-- `BEQ label`, opcode `F0` (R230, R146). -/
def execBeq (off : Byte) (s : State) : Result := branch (getFlag s.p .z) off s

/-- `BNE label`, opcode `D0` (R231, R146). -/
def execBne (off : Byte) (s : State) : Result := branch (!getFlag s.p .z) off s

/-- `BMI label`, opcode `30` (R232, R146). -/
def execBmi (off : Byte) (s : State) : Result := branch (getFlag s.p .n) off s

/-- `BPL label`, opcode `10` (R233, R146). -/
def execBpl (off : Byte) (s : State) : Result := branch (!getFlag s.p .n) off s

/-- `BVC label`, opcode `50` (R234, R146). -/
def execBvc (off : Byte) (s : State) : Result := branch (!getFlag s.p .v) off s

/-- `BVS label`, opcode `70` (R235, R146). -/
def execBvs (off : Byte) (s : State) : Result := branch (getFlag s.p .v) off s

end Sys2Proof.Machine
end

