-- ==== Sys2Proof/Machine/LoadStore.lean ====
section
/-! DEFINITION. Loads, stores and register transfers (R160 to R172). One meaning per opcode; lengths and cycles from R465 and the rule's own table. -/

namespace Sys2Proof.Machine

/-- `LDA ($nn,X)`, opcode `A1` (R161, R143). -/
def execLdaIndX (d : Byte) (s : State) : Result := readOperand 2 6 (indirectX d s) loadA

/-- `LDA $nn`, opcode `A5` (R161, R137). -/
def execLdaZp (d : Byte) (s : State) : Result := readOperand 2 3 (zeroPage d s) loadA

/-- `LDA #$nn`, opcode `A9` (R161, R136). -/
def execLdaImm (v : Byte) (s : State) : Result := immediate v loadA s

/-- `LDA $nnnn`, opcode `AD` (R161, R140). -/
def execLdaAbs (a : Word) (s : State) : Result := readOperand 3 4 (absolute a s) loadA

/-- `LDA ($nn),Y`, opcode `B1` (R161, R144). -/
def execLdaIndY (d : Byte) (s : State) : Result := readIndexed 2 5 (indirectY d s) loadA

/-- `LDA $nn,X`, opcode `B5` (R161, R138). -/
def execLdaZpX (d : Byte) (s : State) : Result := readOperand 2 4 (zeroPageX d s) loadA

/-- `LDA $nnnn,Y`, opcode `B9` (R161, R142). -/
def execLdaAbsY (base : Word) (s : State) : Result := readIndexed 3 4 (absoluteY base s) loadA

/-- `LDA $nnnn,X`, opcode `BD` (R161, R141). -/
def execLdaAbsX (base : Word) (s : State) : Result := readIndexed 3 4 (absoluteX base s) loadA

/-- `LDX #$nn`, opcode `A2` (R162, R136). -/
def execLdxImm (v : Byte) (s : State) : Result := immediate v loadX s

/-- `LDX $nn`, opcode `A6` (R162, R137). -/
def execLdxZp (d : Byte) (s : State) : Result := readOperand 2 3 (zeroPage d s) loadX

/-- `LDX $nnnn`, opcode `AE` (R162, R140). -/
def execLdxAbs (a : Word) (s : State) : Result := readOperand 3 4 (absolute a s) loadX

/-- `LDX $nn,Y`, opcode `B6` (R162, R139). -/
def execLdxZpY (d : Byte) (s : State) : Result := readOperand 2 4 (zeroPageY d s) loadX

/-- `LDX $nnnn,Y`, opcode `BE` (R162, R142). -/
def execLdxAbsY (base : Word) (s : State) : Result := readIndexed 3 4 (absoluteY base s) loadX

/-- `LDY #$nn`, opcode `A0` (R163, R136). -/
def execLdyImm (v : Byte) (s : State) : Result := immediate v loadY s

/-- `LDY $nn`, opcode `A4` (R163, R137). -/
def execLdyZp (d : Byte) (s : State) : Result := readOperand 2 3 (zeroPage d s) loadY

/-- `LDY $nnnn`, opcode `AC` (R163, R140). -/
def execLdyAbs (a : Word) (s : State) : Result := readOperand 3 4 (absolute a s) loadY

/-- `LDY $nn,X`, opcode `B4` (R163, R138). -/
def execLdyZpX (d : Byte) (s : State) : Result := readOperand 2 4 (zeroPageX d s) loadY

/-- `LDY $nnnn,X`, opcode `BC` (R163, R141). -/
def execLdyAbsX (base : Word) (s : State) : Result := readIndexed 3 4 (absoluteX base s) loadY

/-- `STA ($nn,X)`, opcode `81` (R164, R143). -/
def execStaIndX (d : Byte) (s : State) : Result := store 2 6 (indirectX d s) s.a

/-- `STA $nn`, opcode `85` (R164, R137). -/
def execStaZp (d : Byte) (s : State) : Result := store 2 3 (zeroPage d s) s.a

/-- `STA $nnnn`, opcode `8D` (R164, R140). -/
def execStaAbs (a : Word) (s : State) : Result := store 3 4 (absolute a s) s.a

/-- `STA ($nn),Y`, opcode `91` (R164, R144). -/
def execStaIndY (d : Byte) (s : State) : Result := store 2 6 (indirectY d s) s.a

/-- `STA $nn,X`, opcode `95` (R164, R138). -/
def execStaZpX (d : Byte) (s : State) : Result := store 2 4 (zeroPageX d s) s.a

/-- `STA $nnnn,Y`, opcode `99` (R164, R142). -/
def execStaAbsY (base : Word) (s : State) : Result := store 3 5 (absoluteY base s) s.a

/-- `STA $nnnn,X`, opcode `9D` (R164, R141). -/
def execStaAbsX (base : Word) (s : State) : Result := store 3 5 (absoluteX base s) s.a

/-- `STX $nn`, opcode `86` (R165, R137). -/
def execStxZp (d : Byte) (s : State) : Result := store 2 3 (zeroPage d s) s.x

/-- `STX $nnnn`, opcode `8E` (R165, R140). -/
def execStxAbs (a : Word) (s : State) : Result := store 3 4 (absolute a s) s.x

/-- `STX $nn,Y`, opcode `96` (R165, R139). -/
def execStxZpY (d : Byte) (s : State) : Result := store 2 4 (zeroPageY d s) s.x

/-- `STY $nn`, opcode `84` (R166, R137). -/
def execStyZp (d : Byte) (s : State) : Result := store 2 3 (zeroPage d s) s.y

/-- `STY $nnnn`, opcode `8C` (R166, R140). -/
def execStyAbs (a : Word) (s : State) : Result := store 3 4 (absolute a s) s.y

/-- `STY $nn,X`, opcode `94` (R166, R138). -/
def execStyZpX (d : Byte) (s : State) : Result := store 2 4 (zeroPageX d s) s.y

/-- `TAX`, opcode `AA` (R167, R134). -/
def execTax (s : State) : Result := advance 1 2 (loadX s.a s)

/-- `TAY`, opcode `A8` (R168, R134). -/
def execTay (s : State) : Result := advance 1 2 (loadY s.a s)

/-- `TXA`, opcode `8A` (R169, R134). -/
def execTxa (s : State) : Result := advance 1 2 (loadA s.x s)

/-- `TYA`, opcode `98` (R170, R134). -/
def execTya (s : State) : Result := advance 1 2 (loadA s.y s)

/-- `TSX`, opcode `BA` (R171, R134). -/
def execTsx (s : State) : Result := advance 1 2 (loadX s.sp s)

/-- `TXS`, opcode `9A` (R172, R134). -/
def execTxs (s : State) : Result := advance 1 2 (s.setSP s.x)

end Sys2Proof.Machine
end

