-- ==== Sys2Proof/Machine/Shift.lean ====
section
/-! DEFINITION. Shifts and rotates (R210 to R214). One meaning per opcode; lengths and cycles from R465 and the rule's own table. -/

namespace Sys2Proof.Machine

/-- `ASL $nn`, opcode `06` (R211, R137). -/
def execAslZp (d : Byte) (s : State) : Result := modify 2 5 (zeroPage d s) aslOp

/-- `ASL A`, opcode `0A` (R211, R135). -/
def execAslA (s : State) : Result := modifyA aslOp s

/-- `ASL $nnnn`, opcode `0E` (R211, R140). -/
def execAslAbs (a : Word) (s : State) : Result := modify 3 6 (absolute a s) aslOp

/-- `ASL $nn,X`, opcode `16` (R211, R138). -/
def execAslZpX (d : Byte) (s : State) : Result := modify 2 6 (zeroPageX d s) aslOp

/-- `ASL $nnnn,X`, opcode `1E` (R211, R141). -/
def execAslAbsX (base : Word) (s : State) : Result := modify 3 7 (absoluteX base s) aslOp

/-- `LSR $nn`, opcode `46` (R212, R137). -/
def execLsrZp (d : Byte) (s : State) : Result := modify 2 5 (zeroPage d s) lsrOp

/-- `LSR A`, opcode `4A` (R212, R135). -/
def execLsrA (s : State) : Result := modifyA lsrOp s

/-- `LSR $nnnn`, opcode `4E` (R212, R140). -/
def execLsrAbs (a : Word) (s : State) : Result := modify 3 6 (absolute a s) lsrOp

/-- `LSR $nn,X`, opcode `56` (R212, R138). -/
def execLsrZpX (d : Byte) (s : State) : Result := modify 2 6 (zeroPageX d s) lsrOp

/-- `LSR $nnnn,X`, opcode `5E` (R212, R141). -/
def execLsrAbsX (base : Word) (s : State) : Result := modify 3 7 (absoluteX base s) lsrOp

/-- `ROL $nn`, opcode `26` (R213, R137). -/
def execRolZp (d : Byte) (s : State) : Result := modify 2 5 (zeroPage d s) rolOp

/-- `ROL A`, opcode `2A` (R213, R135). -/
def execRolA (s : State) : Result := modifyA rolOp s

/-- `ROL $nnnn`, opcode `2E` (R213, R140). -/
def execRolAbs (a : Word) (s : State) : Result := modify 3 6 (absolute a s) rolOp

/-- `ROL $nn,X`, opcode `36` (R213, R138). -/
def execRolZpX (d : Byte) (s : State) : Result := modify 2 6 (zeroPageX d s) rolOp

/-- `ROL $nnnn,X`, opcode `3E` (R213, R141). -/
def execRolAbsX (base : Word) (s : State) : Result := modify 3 7 (absoluteX base s) rolOp

/-- `ROR $nn`, opcode `66` (R214, R137). -/
def execRorZp (d : Byte) (s : State) : Result := modify 2 5 (zeroPage d s) rorOp

/-- `ROR A`, opcode `6A` (R214, R135). -/
def execRorA (s : State) : Result := modifyA rorOp s

/-- `ROR $nnnn`, opcode `6E` (R214, R140). -/
def execRorAbs (a : Word) (s : State) : Result := modify 3 6 (absolute a s) rorOp

/-- `ROR $nn,X`, opcode `76` (R214, R138). -/
def execRorZpX (d : Byte) (s : State) : Result := modify 2 6 (zeroPageX d s) rorOp

/-- `ROR $nnnn,X`, opcode `7E` (R214, R141). -/
def execRorAbsX (base : Word) (s : State) : Result := modify 3 7 (absoluteX base s) rorOp

end Sys2Proof.Machine
end

