-- ==== Sys2Proof/Machine/StackFlags.lean ====
section
/-! DEFINITION. Stack and flag instructions (R250 to R261). One meaning per opcode; lengths and cycles from R465 and the rule's own table. -/

namespace Sys2Proof.Machine

/-- `PHA`, opcode `48` (R251, R134). -/
def execPha (s : State) : Result := advance 1 3 (push s.a s)

/-- `PHP`, opcode `08` (R252, R134). -/
def execPhp (s : State) : Result := advance 1 3 (push (pushedByInstruction s.p) s)

/-- `PLP`, opcode `28` (R253, R134). -/
def execPlp (s : State) : Result :=
  let m := pop s
  advance 1 4 (m.2.setP (loadedStatus m.1))

/-- `PLA`, opcode `68` (R254, R134). -/
def execPla (s : State) : Result :=
  let m := pop s
  advance 1 4 (loadA m.1 m.2)

/-- `CLC`, opcode `18` (R255, R134). -/
def execClc (s : State) : Result := advance 1 2 (s.setP (setFlag s.p .c false))

/-- `SEC`, opcode `38` (R256, R134). -/
def execSec (s : State) : Result := advance 1 2 (s.setP (setFlag s.p .c true))

/-- `CLI`, opcode `58` (R257, R134). -/
def execCli (s : State) : Result := advance 1 2 (s.setP (setFlag s.p .i false))

/-- `SEI`, opcode `78` (R258, R134). -/
def execSei (s : State) : Result := advance 1 2 (s.setP (setFlag s.p .i true))

/-- `CLD`, opcode `D8` (R259, R134). -/
def execCld (s : State) : Result := advance 1 2 (s.setP (setFlag s.p .d false))

/-- `SED`, opcode `F8` (R260, R134). -/
def execSed (s : State) : Result := advance 1 2 (s.setP (setFlag s.p .d true))

/-- `CLV`, opcode `B8` (R261, R134). -/
def execClv (s : State) : Result := advance 1 2 (s.setP (setFlag s.p .v false))

end Sys2Proof.Machine
end

