-- ==== Sys2Proof/Machine/Dispatch.lean ====
section
/-! DEFINITION. One arm per instruction. -/

namespace Sys2Proof.Machine

def exec (i : Instr) (s : State) : Host.Outcome State Fault Refusal :=
  match i with
  | .ldaIndX d => Sys2Proof.Machine.execLdaIndX d s
  | .ldaZp d => Sys2Proof.Machine.execLdaZp d s
  | .ldaImm v => Sys2Proof.Machine.execLdaImm v s
  | .ldaAbs a => Sys2Proof.Machine.execLdaAbs a s
  | .ldaIndY d => Sys2Proof.Machine.execLdaIndY d s
  | .ldaZpX d => Sys2Proof.Machine.execLdaZpX d s
  | .ldaAbsY base => Sys2Proof.Machine.execLdaAbsY base s
  | .ldaAbsX base => Sys2Proof.Machine.execLdaAbsX base s
  | .ldxImm v => Sys2Proof.Machine.execLdxImm v s
  | .ldxZp d => Sys2Proof.Machine.execLdxZp d s
  | .ldxAbs a => Sys2Proof.Machine.execLdxAbs a s
  | .ldxZpY d => Sys2Proof.Machine.execLdxZpY d s
  | .ldxAbsY base => Sys2Proof.Machine.execLdxAbsY base s
  | .ldyImm v => Sys2Proof.Machine.execLdyImm v s
  | .ldyZp d => Sys2Proof.Machine.execLdyZp d s
  | .ldyAbs a => Sys2Proof.Machine.execLdyAbs a s
  | .ldyZpX d => Sys2Proof.Machine.execLdyZpX d s
  | .ldyAbsX base => Sys2Proof.Machine.execLdyAbsX base s
  | .staIndX d => Sys2Proof.Machine.execStaIndX d s
  | .staZp d => Sys2Proof.Machine.execStaZp d s
  | .staAbs a => Sys2Proof.Machine.execStaAbs a s
  | .staIndY d => Sys2Proof.Machine.execStaIndY d s
  | .staZpX d => Sys2Proof.Machine.execStaZpX d s
  | .staAbsY base => Sys2Proof.Machine.execStaAbsY base s
  | .staAbsX base => Sys2Proof.Machine.execStaAbsX base s
  | .stxZp d => Sys2Proof.Machine.execStxZp d s
  | .stxAbs a => Sys2Proof.Machine.execStxAbs a s
  | .stxZpY d => Sys2Proof.Machine.execStxZpY d s
  | .styZp d => Sys2Proof.Machine.execStyZp d s
  | .styAbs a => Sys2Proof.Machine.execStyAbs a s
  | .styZpX d => Sys2Proof.Machine.execStyZpX d s
  | .tax => Sys2Proof.Machine.execTax s
  | .tay => Sys2Proof.Machine.execTay s
  | .txa => Sys2Proof.Machine.execTxa s
  | .tya => Sys2Proof.Machine.execTya s
  | .tsx => Sys2Proof.Machine.execTsx s
  | .txs => Sys2Proof.Machine.execTxs s
  | .adcIndX d => Sys2Proof.Machine.execAdcIndX d s
  | .adcZp d => Sys2Proof.Machine.execAdcZp d s
  | .adcImm v => Sys2Proof.Machine.execAdcImm v s
  | .adcAbs a => Sys2Proof.Machine.execAdcAbs a s
  | .adcIndY d => Sys2Proof.Machine.execAdcIndY d s
  | .adcZpX d => Sys2Proof.Machine.execAdcZpX d s
  | .adcAbsY base => Sys2Proof.Machine.execAdcAbsY base s
  | .adcAbsX base => Sys2Proof.Machine.execAdcAbsX base s
  | .sbcIndX d => Sys2Proof.Machine.execSbcIndX d s
  | .sbcZp d => Sys2Proof.Machine.execSbcZp d s
  | .sbcImm v => Sys2Proof.Machine.execSbcImm v s
  | .sbcAbs a => Sys2Proof.Machine.execSbcAbs a s
  | .sbcIndY d => Sys2Proof.Machine.execSbcIndY d s
  | .sbcZpX d => Sys2Proof.Machine.execSbcZpX d s
  | .sbcAbsY base => Sys2Proof.Machine.execSbcAbsY base s
  | .sbcAbsX base => Sys2Proof.Machine.execSbcAbsX base s
  | .andIndX d => Sys2Proof.Machine.execAndIndX d s
  | .andZp d => Sys2Proof.Machine.execAndZp d s
  | .andImm v => Sys2Proof.Machine.execAndImm v s
  | .andAbs a => Sys2Proof.Machine.execAndAbs a s
  | .andIndY d => Sys2Proof.Machine.execAndIndY d s
  | .andZpX d => Sys2Proof.Machine.execAndZpX d s
  | .andAbsY base => Sys2Proof.Machine.execAndAbsY base s
  | .andAbsX base => Sys2Proof.Machine.execAndAbsX base s
  | .oraIndX d => Sys2Proof.Machine.execOraIndX d s
  | .oraZp d => Sys2Proof.Machine.execOraZp d s
  | .oraImm v => Sys2Proof.Machine.execOraImm v s
  | .oraAbs a => Sys2Proof.Machine.execOraAbs a s
  | .oraIndY d => Sys2Proof.Machine.execOraIndY d s
  | .oraZpX d => Sys2Proof.Machine.execOraZpX d s
  | .oraAbsY base => Sys2Proof.Machine.execOraAbsY base s
  | .oraAbsX base => Sys2Proof.Machine.execOraAbsX base s
  | .eorIndX d => Sys2Proof.Machine.execEorIndX d s
  | .eorZp d => Sys2Proof.Machine.execEorZp d s
  | .eorImm v => Sys2Proof.Machine.execEorImm v s
  | .eorAbs a => Sys2Proof.Machine.execEorAbs a s
  | .eorIndY d => Sys2Proof.Machine.execEorIndY d s
  | .eorZpX d => Sys2Proof.Machine.execEorZpX d s
  | .eorAbsY base => Sys2Proof.Machine.execEorAbsY base s
  | .eorAbsX base => Sys2Proof.Machine.execEorAbsX base s
  | .cmpIndX d => Sys2Proof.Machine.execCmpIndX d s
  | .cmpZp d => Sys2Proof.Machine.execCmpZp d s
  | .cmpImm v => Sys2Proof.Machine.execCmpImm v s
  | .cmpAbs a => Sys2Proof.Machine.execCmpAbs a s
  | .cmpIndY d => Sys2Proof.Machine.execCmpIndY d s
  | .cmpZpX d => Sys2Proof.Machine.execCmpZpX d s
  | .cmpAbsY base => Sys2Proof.Machine.execCmpAbsY base s
  | .cmpAbsX base => Sys2Proof.Machine.execCmpAbsX base s
  | .cpxImm v => Sys2Proof.Machine.execCpxImm v s
  | .cpxZp d => Sys2Proof.Machine.execCpxZp d s
  | .cpxAbs a => Sys2Proof.Machine.execCpxAbs a s
  | .cpyImm v => Sys2Proof.Machine.execCpyImm v s
  | .cpyZp d => Sys2Proof.Machine.execCpyZp d s
  | .cpyAbs a => Sys2Proof.Machine.execCpyAbs a s
  | .bitZp d => Sys2Proof.Machine.execBitZp d s
  | .bitAbs a => Sys2Proof.Machine.execBitAbs a s
  | .incZp d => Sys2Proof.Machine.execIncZp d s
  | .incAbs a => Sys2Proof.Machine.execIncAbs a s
  | .incZpX d => Sys2Proof.Machine.execIncZpX d s
  | .incAbsX base => Sys2Proof.Machine.execIncAbsX base s
  | .decZp d => Sys2Proof.Machine.execDecZp d s
  | .decAbs a => Sys2Proof.Machine.execDecAbs a s
  | .decZpX d => Sys2Proof.Machine.execDecZpX d s
  | .decAbsX base => Sys2Proof.Machine.execDecAbsX base s
  | .inx => Sys2Proof.Machine.execInx s
  | .iny => Sys2Proof.Machine.execIny s
  | .dex => Sys2Proof.Machine.execDex s
  | .dey => Sys2Proof.Machine.execDey s
  | .aslZp d => Sys2Proof.Machine.execAslZp d s
  | .aslA => Sys2Proof.Machine.execAslA s
  | .aslAbs a => Sys2Proof.Machine.execAslAbs a s
  | .aslZpX d => Sys2Proof.Machine.execAslZpX d s
  | .aslAbsX base => Sys2Proof.Machine.execAslAbsX base s
  | .lsrZp d => Sys2Proof.Machine.execLsrZp d s
  | .lsrA => Sys2Proof.Machine.execLsrA s
  | .lsrAbs a => Sys2Proof.Machine.execLsrAbs a s
  | .lsrZpX d => Sys2Proof.Machine.execLsrZpX d s
  | .lsrAbsX base => Sys2Proof.Machine.execLsrAbsX base s
  | .rolZp d => Sys2Proof.Machine.execRolZp d s
  | .rolA => Sys2Proof.Machine.execRolA s
  | .rolAbs a => Sys2Proof.Machine.execRolAbs a s
  | .rolZpX d => Sys2Proof.Machine.execRolZpX d s
  | .rolAbsX base => Sys2Proof.Machine.execRolAbsX base s
  | .rorZp d => Sys2Proof.Machine.execRorZp d s
  | .rorA => Sys2Proof.Machine.execRorA s
  | .rorAbs a => Sys2Proof.Machine.execRorAbs a s
  | .rorZpX d => Sys2Proof.Machine.execRorZpX d s
  | .rorAbsX base => Sys2Proof.Machine.execRorAbsX base s
  | .jmpAbs target => Sys2Proof.Machine.execJmpAbs target s
  | .jmpInd ptr => Sys2Proof.Machine.execJmpInd ptr s
  | .jsrAbs target => Sys2Proof.Machine.execJsrAbs target s
  | .rts => Sys2Proof.Machine.execRts s
  | .rti => Sys2Proof.Machine.execRti s
  | .brk => Sys2Proof.Machine.execBrk s
  | .nop => Sys2Proof.Machine.execNop s
  | .bcc off => Sys2Proof.Machine.execBcc off s
  | .bcs off => Sys2Proof.Machine.execBcs off s
  | .beq off => Sys2Proof.Machine.execBeq off s
  | .bne off => Sys2Proof.Machine.execBne off s
  | .bmi off => Sys2Proof.Machine.execBmi off s
  | .bpl off => Sys2Proof.Machine.execBpl off s
  | .bvc off => Sys2Proof.Machine.execBvc off s
  | .bvs off => Sys2Proof.Machine.execBvs off s
  | .pha => Sys2Proof.Machine.execPha s
  | .php => Sys2Proof.Machine.execPhp s
  | .plp => Sys2Proof.Machine.execPlp s
  | .pla => Sys2Proof.Machine.execPla s
  | .clc => Sys2Proof.Machine.execClc s
  | .sec => Sys2Proof.Machine.execSec s
  | .cli => Sys2Proof.Machine.execCli s
  | .sei => Sys2Proof.Machine.execSei s
  | .cld => Sys2Proof.Machine.execCld s
  | .sed => Sys2Proof.Machine.execSed s
  | .clv => Sys2Proof.Machine.execClv s

end Sys2Proof.Machine
end

