-- ==== Sys2Proof/WellFormed.lean ====
section
/-! DEFINITION. Which terms are instructions: a mnemonic takes only the addressing modes the opcode map gives it (R147,
R148), with as many operand bytes as the mode's length calls for (R130, R133). Every operand value is legal (R150), so an
`Instr` is checked for its pair of mnemonic and mode only, and a written instruction (`Written`) for both. -/

namespace Sys2Proof

/-- The addressing modes the opcode map gives a mnemonic (R148). -/
def Mnemonic.modes : Mnemonic → List Mode
  | .lda => [.indirectX, .zeroPage, .immediate, .absolute, .indirectY, .zeroPageX, .absoluteY, .absoluteX]
  | .ldx => [.immediate, .zeroPage, .absolute, .zeroPageY, .absoluteY]
  | .ldy => [.immediate, .zeroPage, .absolute, .zeroPageX, .absoluteX]
  | .sta => [.indirectX, .zeroPage, .absolute, .indirectY, .zeroPageX, .absoluteY, .absoluteX]
  | .stx => [.zeroPage, .absolute, .zeroPageY]
  | .sty => [.zeroPage, .absolute, .zeroPageX]
  | .tax => [.implied]
  | .tay => [.implied]
  | .txa => [.implied]
  | .tya => [.implied]
  | .tsx => [.implied]
  | .txs => [.implied]
  | .adc => [.indirectX, .zeroPage, .immediate, .absolute, .indirectY, .zeroPageX, .absoluteY, .absoluteX]
  | .sbc => [.indirectX, .zeroPage, .immediate, .absolute, .indirectY, .zeroPageX, .absoluteY, .absoluteX]
  | .and => [.indirectX, .zeroPage, .immediate, .absolute, .indirectY, .zeroPageX, .absoluteY, .absoluteX]
  | .ora => [.indirectX, .zeroPage, .immediate, .absolute, .indirectY, .zeroPageX, .absoluteY, .absoluteX]
  | .eor => [.indirectX, .zeroPage, .immediate, .absolute, .indirectY, .zeroPageX, .absoluteY, .absoluteX]
  | .cmp => [.indirectX, .zeroPage, .immediate, .absolute, .indirectY, .zeroPageX, .absoluteY, .absoluteX]
  | .cpx => [.immediate, .zeroPage, .absolute]
  | .cpy => [.immediate, .zeroPage, .absolute]
  | .bit => [.zeroPage, .absolute]
  | .inc => [.zeroPage, .absolute, .zeroPageX, .absoluteX]
  | .dec => [.zeroPage, .absolute, .zeroPageX, .absoluteX]
  | .inx => [.implied]
  | .iny => [.implied]
  | .dex => [.implied]
  | .dey => [.implied]
  | .asl => [.zeroPage, .accumulator, .absolute, .zeroPageX, .absoluteX]
  | .lsr => [.zeroPage, .accumulator, .absolute, .zeroPageX, .absoluteX]
  | .rol => [.zeroPage, .accumulator, .absolute, .zeroPageX, .absoluteX]
  | .ror => [.zeroPage, .accumulator, .absolute, .zeroPageX, .absoluteX]
  | .jmp => [.absolute, .indirect]
  | .jsr => [.absolute]
  | .rts => [.implied]
  | .rti => [.implied]
  | .brk => [.implied]
  | .nop => [.implied]
  | .bcc => [.relative]
  | .bcs => [.relative]
  | .beq => [.relative]
  | .bne => [.relative]
  | .bmi => [.relative]
  | .bpl => [.relative]
  | .bvc => [.relative]
  | .bvs => [.relative]
  | .pha => [.implied]
  | .php => [.implied]
  | .plp => [.implied]
  | .pla => [.implied]
  | .clc => [.implied]
  | .sec => [.implied]
  | .cli => [.implied]
  | .sei => [.implied]
  | .cld => [.implied]
  | .sed => [.implied]
  | .clv => [.implied]

/-- The opcode map has an entry for this mnemonic in this mode (R147). -/
def Mnemonic.supports (m : Mnemonic) (md : Mode) : Bool := m.modes.contains md

/-- An instruction is well formed when its mnemonic supports its mode (R147); R402: no constructor fails this check. -/
def Instr.wellFormed (i : Instr) : Bool := i.mnemonic.supports i.mode

/-- An instruction as it is written down: a mnemonic, a mode and operand bytes, which need not fit together (R152). -/
structure Written where
  mnemonic : Mnemonic
  mode : Mode
  operand : List Byte
deriving DecidableEq, Repr

/-- The first check: the mnemonic has this mode (R147). -/
def Written.modeOk (i : Written) : Bool := i.mnemonic.supports i.mode

/-- The second check: the operand has the bytes the mode's length calls for (R130, R133). -/
def Written.lengthOk (i : Written) : Bool := i.operand.length + 1 == i.mode.length

/-- A written instruction is well formed when both checks pass. -/
def Written.wellFormed (i : Written) : Bool := i.modeOk && i.lengthOk

end Sys2Proof
end

