-- ==== Sys2Proof/Decode.lean ====
section
/-! DEFINITION. The decoder, total on any bytes and rejecting by name (R132, R148, R149), and after it the encoder. -/

namespace Sys2Proof

open Sys2Proof.Machine (word hiByte loByte)

/-- Why bytes are no instruction. -/
inductive DecodeError where
  /-- The opcode byte is one of the 105 illegal bytes (R149). -/
  | illegalOpcode (op : Byte)
  /-- There are fewer bytes than the opcode's length calls for (R130). -/
  | missingOperand (op : Byte)
deriving DecidableEq, Repr

/-- The decoder's answer: an instruction and the bytes after it, or a named rejection. -/
inductive Decoded where
  | ok (i : Instr) (rest : List Byte)
  | rejected (e : DecodeError)
deriving DecidableEq, Repr

/-- One entry of the opcode map: the format (R130) and the instruction it builds, or an illegal byte (R149). -/
inductive Entry where
  | f1 (i : Instr)
  | f2 (build : Byte → Instr)
  | f3 (build : Word → Instr)
  | illegal

/-- The number of bytes an entry's format takes (R130), none for an illegal byte. -/
def Entry.length : Entry → Option Nat
  | .f1 _ => some 1
  | .f2 _ => some 2
  | .f3 _ => some 3
  | .illegal => none

/-- Row 0x of the opcode map (R148), columns x0 to xF. -/
def opcodeRow0 : List Entry :=
  [.f1 .brk, .f2 .oraIndX, .illegal, .illegal,
   .illegal, .f2 .oraZp, .f2 .aslZp, .illegal,
   .f1 .php, .f2 .oraImm, .f1 .aslA, .illegal,
   .illegal, .f3 .oraAbs, .f3 .aslAbs, .illegal]

/-- Row 1x of the opcode map (R148), columns x0 to xF. -/
def opcodeRow1 : List Entry :=
  [.f2 .bpl, .f2 .oraIndY, .illegal, .illegal,
   .illegal, .f2 .oraZpX, .f2 .aslZpX, .illegal,
   .f1 .clc, .f3 .oraAbsY, .illegal, .illegal,
   .illegal, .f3 .oraAbsX, .f3 .aslAbsX, .illegal]

/-- Row 2x of the opcode map (R148), columns x0 to xF. -/
def opcodeRow2 : List Entry :=
  [.f3 .jsrAbs, .f2 .andIndX, .illegal, .illegal,
   .f2 .bitZp, .f2 .andZp, .f2 .rolZp, .illegal,
   .f1 .plp, .f2 .andImm, .f1 .rolA, .illegal,
   .f3 .bitAbs, .f3 .andAbs, .f3 .rolAbs, .illegal]

/-- Row 3x of the opcode map (R148), columns x0 to xF. -/
def opcodeRow3 : List Entry :=
  [.f2 .bmi, .f2 .andIndY, .illegal, .illegal,
   .illegal, .f2 .andZpX, .f2 .rolZpX, .illegal,
   .f1 .sec, .f3 .andAbsY, .illegal, .illegal,
   .illegal, .f3 .andAbsX, .f3 .rolAbsX, .illegal]

/-- Row 4x of the opcode map (R148), columns x0 to xF. -/
def opcodeRow4 : List Entry :=
  [.f1 .rti, .f2 .eorIndX, .illegal, .illegal,
   .illegal, .f2 .eorZp, .f2 .lsrZp, .illegal,
   .f1 .pha, .f2 .eorImm, .f1 .lsrA, .illegal,
   .f3 .jmpAbs, .f3 .eorAbs, .f3 .lsrAbs, .illegal]

/-- Row 5x of the opcode map (R148), columns x0 to xF. -/
def opcodeRow5 : List Entry :=
  [.f2 .bvc, .f2 .eorIndY, .illegal, .illegal,
   .illegal, .f2 .eorZpX, .f2 .lsrZpX, .illegal,
   .f1 .cli, .f3 .eorAbsY, .illegal, .illegal,
   .illegal, .f3 .eorAbsX, .f3 .lsrAbsX, .illegal]

/-- Row 6x of the opcode map (R148), columns x0 to xF. -/
def opcodeRow6 : List Entry :=
  [.f1 .rts, .f2 .adcIndX, .illegal, .illegal,
   .illegal, .f2 .adcZp, .f2 .rorZp, .illegal,
   .f1 .pla, .f2 .adcImm, .f1 .rorA, .illegal,
   .f3 .jmpInd, .f3 .adcAbs, .f3 .rorAbs, .illegal]

/-- Row 7x of the opcode map (R148), columns x0 to xF. -/
def opcodeRow7 : List Entry :=
  [.f2 .bvs, .f2 .adcIndY, .illegal, .illegal,
   .illegal, .f2 .adcZpX, .f2 .rorZpX, .illegal,
   .f1 .sei, .f3 .adcAbsY, .illegal, .illegal,
   .illegal, .f3 .adcAbsX, .f3 .rorAbsX, .illegal]

/-- Row 8x of the opcode map (R148), columns x0 to xF. -/
def opcodeRow8 : List Entry :=
  [.illegal, .f2 .staIndX, .illegal, .illegal,
   .f2 .styZp, .f2 .staZp, .f2 .stxZp, .illegal,
   .f1 .dey, .illegal, .f1 .txa, .illegal,
   .f3 .styAbs, .f3 .staAbs, .f3 .stxAbs, .illegal]

/-- Row 9x of the opcode map (R148), columns x0 to xF. -/
def opcodeRow9 : List Entry :=
  [.f2 .bcc, .f2 .staIndY, .illegal, .illegal,
   .f2 .styZpX, .f2 .staZpX, .f2 .stxZpY, .illegal,
   .f1 .tya, .f3 .staAbsY, .f1 .txs, .illegal,
   .illegal, .f3 .staAbsX, .illegal, .illegal]

/-- Row Ax of the opcode map (R148), columns x0 to xF. -/
def opcodeRowA : List Entry :=
  [.f2 .ldyImm, .f2 .ldaIndX, .f2 .ldxImm, .illegal,
   .f2 .ldyZp, .f2 .ldaZp, .f2 .ldxZp, .illegal,
   .f1 .tay, .f2 .ldaImm, .f1 .tax, .illegal,
   .f3 .ldyAbs, .f3 .ldaAbs, .f3 .ldxAbs, .illegal]

/-- Row Bx of the opcode map (R148), columns x0 to xF. -/
def opcodeRowB : List Entry :=
  [.f2 .bcs, .f2 .ldaIndY, .illegal, .illegal,
   .f2 .ldyZpX, .f2 .ldaZpX, .f2 .ldxZpY, .illegal,
   .f1 .clv, .f3 .ldaAbsY, .f1 .tsx, .illegal,
   .f3 .ldyAbsX, .f3 .ldaAbsX, .f3 .ldxAbsY, .illegal]

/-- Row Cx of the opcode map (R148), columns x0 to xF. -/
def opcodeRowC : List Entry :=
  [.f2 .cpyImm, .f2 .cmpIndX, .illegal, .illegal,
   .f2 .cpyZp, .f2 .cmpZp, .f2 .decZp, .illegal,
   .f1 .iny, .f2 .cmpImm, .f1 .dex, .illegal,
   .f3 .cpyAbs, .f3 .cmpAbs, .f3 .decAbs, .illegal]

/-- Row Dx of the opcode map (R148), columns x0 to xF. -/
def opcodeRowD : List Entry :=
  [.f2 .bne, .f2 .cmpIndY, .illegal, .illegal,
   .illegal, .f2 .cmpZpX, .f2 .decZpX, .illegal,
   .f1 .cld, .f3 .cmpAbsY, .illegal, .illegal,
   .illegal, .f3 .cmpAbsX, .f3 .decAbsX, .illegal]

/-- Row Ex of the opcode map (R148), columns x0 to xF. -/
def opcodeRowE : List Entry :=
  [.f2 .cpxImm, .f2 .sbcIndX, .illegal, .illegal,
   .f2 .cpxZp, .f2 .sbcZp, .f2 .incZp, .illegal,
   .f1 .inx, .f2 .sbcImm, .f1 .nop, .illegal,
   .f3 .cpxAbs, .f3 .sbcAbs, .f3 .incAbs, .illegal]

/-- Row Fx of the opcode map (R148), columns x0 to xF. -/
def opcodeRowF : List Entry :=
  [.f2 .beq, .f2 .sbcIndY, .illegal, .illegal,
   .illegal, .f2 .sbcZpX, .f2 .incZpX, .illegal,
   .f1 .sed, .f3 .sbcAbsY, .illegal, .illegal,
   .illegal, .f3 .sbcAbsX, .f3 .incAbsX, .illegal]

/-- The opcode map (R148): rows by the high nibble. -/
def opcodeMap : List (List Entry) :=
  [opcodeRow0, opcodeRow1, opcodeRow2, opcodeRow3, opcodeRow4, opcodeRow5, opcodeRow6, opcodeRow7] ++
  [opcodeRow8, opcodeRow9, opcodeRowA, opcodeRowB, opcodeRowC, opcodeRowD, opcodeRowE, opcodeRowF]

/-- `DECODE[op]` (R132): the whole opcode byte is looked up, high nibble for the row, low nibble for the column. -/
def lookup (op : Byte) : Entry :=
  (opcodeMap.getD (op.toNat / 16) []).getD (op.toNat % 16) .illegal

/-- The length of the instruction that starts with this opcode byte (R151), none where the byte is illegal. -/
def opcodeLength (op : Byte) : Option Nat := (lookup op).length

/-- Decoding of the bytes that start an instruction (R130, R132): operand words are little-endian (R80). -/
def decode : List Byte → Decoded
  | [] => .rejected (.missingOperand 0)
  | op :: rest =>
    match lookup op, rest with
    | .f1 i, rest => .ok i rest
    | .f2 build, d :: rest => .ok (build d) rest
    | .f3 build, lo :: hi :: rest => .ok (build (word hi lo)) rest
    | .illegal, _ => .rejected (.illegalOpcode op)
    | _, _ => .rejected (.missingOperand op)

/-- The bytes of an instruction, first byte first (R130, R148). -/
def encode : Instr → List Byte
  | .ldaIndX d => [0xA1, d]
  | .ldaZp d => [0xA5, d]
  | .ldaImm v => [0xA9, v]
  | .ldaAbs a => [0xAD, loByte a, hiByte a]
  | .ldaIndY d => [0xB1, d]
  | .ldaZpX d => [0xB5, d]
  | .ldaAbsY base => [0xB9, loByte base, hiByte base]
  | .ldaAbsX base => [0xBD, loByte base, hiByte base]
  | .ldxImm v => [0xA2, v]
  | .ldxZp d => [0xA6, d]
  | .ldxAbs a => [0xAE, loByte a, hiByte a]
  | .ldxZpY d => [0xB6, d]
  | .ldxAbsY base => [0xBE, loByte base, hiByte base]
  | .ldyImm v => [0xA0, v]
  | .ldyZp d => [0xA4, d]
  | .ldyAbs a => [0xAC, loByte a, hiByte a]
  | .ldyZpX d => [0xB4, d]
  | .ldyAbsX base => [0xBC, loByte base, hiByte base]
  | .staIndX d => [0x81, d]
  | .staZp d => [0x85, d]
  | .staAbs a => [0x8D, loByte a, hiByte a]
  | .staIndY d => [0x91, d]
  | .staZpX d => [0x95, d]
  | .staAbsY base => [0x99, loByte base, hiByte base]
  | .staAbsX base => [0x9D, loByte base, hiByte base]
  | .stxZp d => [0x86, d]
  | .stxAbs a => [0x8E, loByte a, hiByte a]
  | .stxZpY d => [0x96, d]
  | .styZp d => [0x84, d]
  | .styAbs a => [0x8C, loByte a, hiByte a]
  | .styZpX d => [0x94, d]
  | .tax => [0xAA]
  | .tay => [0xA8]
  | .txa => [0x8A]
  | .tya => [0x98]
  | .tsx => [0xBA]
  | .txs => [0x9A]
  | .adcIndX d => [0x61, d]
  | .adcZp d => [0x65, d]
  | .adcImm v => [0x69, v]
  | .adcAbs a => [0x6D, loByte a, hiByte a]
  | .adcIndY d => [0x71, d]
  | .adcZpX d => [0x75, d]
  | .adcAbsY base => [0x79, loByte base, hiByte base]
  | .adcAbsX base => [0x7D, loByte base, hiByte base]
  | .sbcIndX d => [0xE1, d]
  | .sbcZp d => [0xE5, d]
  | .sbcImm v => [0xE9, v]
  | .sbcAbs a => [0xED, loByte a, hiByte a]
  | .sbcIndY d => [0xF1, d]
  | .sbcZpX d => [0xF5, d]
  | .sbcAbsY base => [0xF9, loByte base, hiByte base]
  | .sbcAbsX base => [0xFD, loByte base, hiByte base]
  | .andIndX d => [0x21, d]
  | .andZp d => [0x25, d]
  | .andImm v => [0x29, v]
  | .andAbs a => [0x2D, loByte a, hiByte a]
  | .andIndY d => [0x31, d]
  | .andZpX d => [0x35, d]
  | .andAbsY base => [0x39, loByte base, hiByte base]
  | .andAbsX base => [0x3D, loByte base, hiByte base]
  | .oraIndX d => [0x01, d]
  | .oraZp d => [0x05, d]
  | .oraImm v => [0x09, v]
  | .oraAbs a => [0x0D, loByte a, hiByte a]
  | .oraIndY d => [0x11, d]
  | .oraZpX d => [0x15, d]
  | .oraAbsY base => [0x19, loByte base, hiByte base]
  | .oraAbsX base => [0x1D, loByte base, hiByte base]
  | .eorIndX d => [0x41, d]
  | .eorZp d => [0x45, d]
  | .eorImm v => [0x49, v]
  | .eorAbs a => [0x4D, loByte a, hiByte a]
  | .eorIndY d => [0x51, d]
  | .eorZpX d => [0x55, d]
  | .eorAbsY base => [0x59, loByte base, hiByte base]
  | .eorAbsX base => [0x5D, loByte base, hiByte base]
  | .cmpIndX d => [0xC1, d]
  | .cmpZp d => [0xC5, d]
  | .cmpImm v => [0xC9, v]
  | .cmpAbs a => [0xCD, loByte a, hiByte a]
  | .cmpIndY d => [0xD1, d]
  | .cmpZpX d => [0xD5, d]
  | .cmpAbsY base => [0xD9, loByte base, hiByte base]
  | .cmpAbsX base => [0xDD, loByte base, hiByte base]
  | .cpxImm v => [0xE0, v]
  | .cpxZp d => [0xE4, d]
  | .cpxAbs a => [0xEC, loByte a, hiByte a]
  | .cpyImm v => [0xC0, v]
  | .cpyZp d => [0xC4, d]
  | .cpyAbs a => [0xCC, loByte a, hiByte a]
  | .bitZp d => [0x24, d]
  | .bitAbs a => [0x2C, loByte a, hiByte a]
  | .incZp d => [0xE6, d]
  | .incAbs a => [0xEE, loByte a, hiByte a]
  | .incZpX d => [0xF6, d]
  | .incAbsX base => [0xFE, loByte base, hiByte base]
  | .decZp d => [0xC6, d]
  | .decAbs a => [0xCE, loByte a, hiByte a]
  | .decZpX d => [0xD6, d]
  | .decAbsX base => [0xDE, loByte base, hiByte base]
  | .inx => [0xE8]
  | .iny => [0xC8]
  | .dex => [0xCA]
  | .dey => [0x88]
  | .aslZp d => [0x06, d]
  | .aslA => [0x0A]
  | .aslAbs a => [0x0E, loByte a, hiByte a]
  | .aslZpX d => [0x16, d]
  | .aslAbsX base => [0x1E, loByte base, hiByte base]
  | .lsrZp d => [0x46, d]
  | .lsrA => [0x4A]
  | .lsrAbs a => [0x4E, loByte a, hiByte a]
  | .lsrZpX d => [0x56, d]
  | .lsrAbsX base => [0x5E, loByte base, hiByte base]
  | .rolZp d => [0x26, d]
  | .rolA => [0x2A]
  | .rolAbs a => [0x2E, loByte a, hiByte a]
  | .rolZpX d => [0x36, d]
  | .rolAbsX base => [0x3E, loByte base, hiByte base]
  | .rorZp d => [0x66, d]
  | .rorA => [0x6A]
  | .rorAbs a => [0x6E, loByte a, hiByte a]
  | .rorZpX d => [0x76, d]
  | .rorAbsX base => [0x7E, loByte base, hiByte base]
  | .jmpAbs target => [0x4C, loByte target, hiByte target]
  | .jmpInd ptr => [0x6C, loByte ptr, hiByte ptr]
  | .jsrAbs target => [0x20, loByte target, hiByte target]
  | .rts => [0x60]
  | .rti => [0x40]
  | .brk => [0x00]
  | .nop => [0xEA]
  | .bcc off => [0x90, off]
  | .bcs off => [0xB0, off]
  | .beq off => [0xF0, off]
  | .bne off => [0xD0, off]
  | .bmi off => [0x30, off]
  | .bpl off => [0x10, off]
  | .bvc off => [0x50, off]
  | .bvs off => [0x70, off]
  | .pha => [0x48]
  | .php => [0x08]
  | .plp => [0x28]
  | .pla => [0x68]
  | .clc => [0x18]
  | .sec => [0x38]
  | .cli => [0x58]
  | .sei => [0x78]
  | .cld => [0xD8]
  | .sed => [0xF8]
  | .clv => [0xB8]

/-- The three bytes of a word whose bits are numbered as the opcode table numbers them: byte 0 in bits 7 to 0, byte 1 in bits
15 to 8, byte 2 in bits 23 to 16; every bit at or above `nbits` is 0. -/
def tableBytes (nbits w : Nat) : List Byte :=
  let v := w % 2 ^ nbits
  [BitVec.ofNat 8 v, BitVec.ofNat 8 (v / 256), BitVec.ofNat 8 (v / 65536)]

/-- The instruction the decoder reads from an instruction given as a number, none where it refuses. -/
def decodeTableWord (nbits w : Nat) : Option Instr :=
  match decode (tableBytes nbits w) with
  | .ok i _ => some i
  | .rejected _ => none

end Sys2Proof
end

