-- ==== Sys2Proof/Machine/Fetch.lean ====
section
/-! DEFINITION. Fetching an instruction's bytes through the bus (R81, R131), and placing an instruction where the next step
fetches it. -/

namespace Sys2Proof.Machine

/-- `n` operand bytes from `a` on, in address order, each by one bus read (R81). -/
def fetchOperands : Nat → Word → State → List Byte × State
  | 0, _, s => ([], s)
  | n + 1, a, s =>
    let b := busRead a s
    let rest := fetchOperands n (a + 1) b.2
    (b.1 :: rest.1, rest.2)

/-- What a fetch gives: an instruction, or an illegal opcode byte; and the state the bus reads leave. -/
inductive Fetched where
  | instr (i : Instr) (s : State)
  | illegal (op : Byte) (s : State)
deriving DecidableEq, Repr

/-- Opcode fetch, decode, operand fetch (R131). An illegal byte stops it before any operand is read (R400). Where the opcode has
a length, its bytes decode, so the last line is never reached. -/
def fetch (s : State) : Fetched :=
  let op := busRead s.pc s
  match opcodeLength op.1 with
  | none => .illegal op.1 op.2
  | some len =>
    let operands := fetchOperands (len - 1) (s.pc + 1) op.2
    match decode (op.1 :: operands.1) with
    | .ok i _ => .instr i operands.2
    | .rejected _ => .illegal op.1 operands.2

/-! ## Placing an instruction (log 9) -/

/-- The address is in RAM or PRG ROM, where a byte can be held. -/
def isMemory (a : Word) : Bool := windowOf a = .ram || windowOf a = .prg

/-- Stores a byte at an address of RAM or PRG ROM from outside the machine: no bus access. -/
def State.poke (s : State) (a : Word) (v : Byte) : State :=
  match windowOf a with
  | .ram => s.setRam (s.ram.write (ramIndex a) v)
  | .prg => { s with params := { s.params with prg := s.params.prg.write (prgIndex s.params.prgSize a) v } }
  | _ => s

/-- Stores bytes from `a` on. -/
def State.pokeBytes : List Byte → Word → State → State
  | [], _, s => s
  | b :: bs, a, s => State.pokeBytes bs (a + 1) (s.poke a b)

/-- `s` with nothing that keeps the next step from fetching: no request, no stop, no interrupt that would be taken. -/
def State.readyToFetch (s : State) : State :=
  { s with
    resetReq := false, stopReq := false, halted := false, fault := none
    ppu := { s.ppu with nmiPending := false }
    apu := { s.apu with fc := { s.apu.fc with
      frameIrq := s.apu.fc.frameIrq && (s.params.irqDelivery = .off || getFlag s.p .i) } } }

/-- `s` with `PC` at `0x0200` where the three bytes from `PC` on are not all in memory. -/
def State.fetchFromMemory (s : State) : State :=
  if isMemory s.pc && isMemory (s.pc + 1) && isMemory (s.pc + 2) then s else s.setPC 0x0200

end Sys2Proof.Machine
end

