-- ==== Sys2Proof/Machine/Execute.lean ====
section
/-! DEFINITION. The execution of one instruction inside a step (R9, R131, R401). -/

namespace Sys2Proof.Machine

/-- The start of `ExecuteInstruction` (R131): no stall, as at the start of every step, and no cost yet. -/
def beginInstruction (s : State) : State := (beginStep s).setStepCycles 0

/-- What a step does with an instruction's answer: a next state gets its tick batch. -/
def closeInstruction (r : Result) : Result :=
  match r with
  | .next t => .next (afterInstruction t)
  | .fault f => .fault f
  | .refused f => .refused f

/-- `ExecuteInstruction` and what `Step` adds after it (R9, R131). An illegal opcode latches the fault, leaves `PC` at the
opcode and ticks nothing (R401). -/
def executeInstruction (s : State) : Result :=
  match fetch (beginInstruction s) with
  | .illegal op t => .next (t.setFault (some ⟨op, s.pc⟩))
  | .instr i t => closeInstruction (exec i t)

end Sys2Proof.Machine
end

