-- ==== Sys2Proof/Machine/Step.lean ====
section
/-! DEFINITION. One machine step (R9), and the state whose next step runs a given instruction. -/

namespace Sys2Proof.Machine

/-- `Step()` (R9): the stop request is sampled, then reset, then a stopped machine, failed or halted, stays as it is (R401, R433),
then the arbiter, then an instruction. No step answers a fault: a failure is the state's field `fault` (log 10). -/
def step (s : State) : Host.Outcome State Fault Refusal :=
  let s := sampleStop s
  if s.resetReq then .next (resetStep s)
  else if s.stopped then .next s
  else
    match arbitrate s with
    | some k => .next (interruptStep k s)
    | none => executeInstruction s

/-- `s` with an instruction, given as the opcode table numbers its bits, stored where `step` fetches its next instruction, and
nothing pending that would keep `step` from fetching it (log 9). -/
def State.withFetchWord (s : State) (nbits w : Nat) : State :=
  let s := s.readyToFetch.fetchFromMemory
  State.pokeBytes (tableBytes nbits w) s.pc s

end Sys2Proof.Machine
end

