-- ==== Sys2Proof/Safety.lean ====
section
/-! DEFINITION. What counts as a safe and as a finished run (R10, R401), the invariant of the machine's states, and the terms in
which the statements speak of instructions: the rows of the spec's encoding tables, the processor's registers and flags as one
record, operands by addressing mode, and the tables of R22 and R27. -/

namespace Sys2Proof.Machine

/-! ## Runs -/

/-- A run has ended (R10): `halted`, and no fault. -/
def State.finished (s : State) : Prop := s.halted = true ∧ s.fault = none

/-- `k` steps from `s` meet no fatal condition (R10, R401): the run answers a state, and no fault is latched in it. -/
def SafeFor (k : Nat) (s : State) : Prop :=
  ∃ t : State, Sys2Proof.core.run k s = .next t ∧ t.fault = none

/-- The run from `s` ends, safely, after `k` steps (R10). -/
def EndsAfter (k : Nat) (s : State) : Prop :=
  ∃ t : State, Sys2Proof.core.run k s = .next t ∧ t.finished

/-- Nothing keeps the next step from fetching an instruction (R9): no request, not stopped, no interrupt to take. -/
def State.Runs (s : State) : Prop :=
  s.resetReq = false ∧ s.stopReq = false ∧ s.fault = none ∧ s.halted = false ∧ arbitrate s = none

/-! ## The invariant -/

/-- Every memory is in canonical form and within its size (R7, R32, R45 to R47). -/
structure State.MemoriesOk (s : State) : Prop where
  ram : s.ram.wf ∧ s.ram.within Config.ramBytes
  vram : s.ppu.vram.wf ∧ s.ppu.vram.within Config.vramBytes
  palette : s.ppu.palette.wf ∧ s.ppu.palette.within Config.paletteBytes
  oam : s.ppu.oam.wf ∧ s.ppu.oam.within Config.oamBytes
  prg : s.params.prg.wf ∧ s.params.prg.within (Config.prgBytes s.params.prgSize)
  chr : s.params.chr.wf ∧ s.params.chr.within Config.chrBytes

/-- The status register reads U as 1 and B as 0 (R28). -/
def State.StatusOk (s : State) : Prop := getFlag s.p .u = true ∧ getFlag s.p .b = false

/-- The scanline timer is in range (R42). -/
def Ppu.TimerOk (u : Ppu) : Prop :=
  u.scanline < Config.scanlinesPerFrame ∧ u.cycle < Config.dotsPerScanline

/-- The frame counter is in range (R53). -/
def FrameCounter.InRange (fc : FrameCounter) : Prop :=
  fc.step < Apu.sequenceLength fc.mode ∧ fc.divider < Config.frameStepPeriod

/-- The invariant that every step keeps. -/
structure State.Inv (s : State) : Prop where
  memories : s.MemoriesOk
  status : s.StatusOk
  timer : s.ppu.TimerOk
  frameCounter : s.apu.fc.InRange
  /-- `dma_stall` is one of 0, 513, 514 (R31). -/
  stall : s.dmaStall = 0 ∨ s.dmaStall = 513 ∨ s.dmaStall = 514

/-! ## The encoding tables of the instruction rules (files 40 to 44) -/

/-- One row of an instruction rule's encoding table; `penalty` stands for "+1 if page crossed". -/
structure Row where
  opcode : Byte
  mode : Mode
  length : Nat
  cycles : Nat
  penalty : Bool
deriving DecidableEq, Repr

/-- The encoding table of each instruction rule (R161 to R261), row by row. -/
def rowsOf : Mnemonic → List Row
  | .lda => [⟨0xA9, .immediate, 2, 2, false⟩, ⟨0xA5, .zeroPage, 2, 3, false⟩, ⟨0xB5, .zeroPageX, 2, 4, false⟩,
      ⟨0xAD, .absolute, 3, 4, false⟩, ⟨0xBD, .absoluteX, 3, 4, true⟩, ⟨0xB9, .absoluteY, 3, 4, true⟩,
      ⟨0xA1, .indirectX, 2, 6, false⟩, ⟨0xB1, .indirectY, 2, 5, true⟩]
  | .ldx => [⟨0xA2, .immediate, 2, 2, false⟩, ⟨0xA6, .zeroPage, 2, 3, false⟩, ⟨0xB6, .zeroPageY, 2, 4, false⟩,
      ⟨0xAE, .absolute, 3, 4, false⟩, ⟨0xBE, .absoluteY, 3, 4, true⟩]
  | .ldy => [⟨0xA0, .immediate, 2, 2, false⟩, ⟨0xA4, .zeroPage, 2, 3, false⟩, ⟨0xB4, .zeroPageX, 2, 4, false⟩,
      ⟨0xAC, .absolute, 3, 4, false⟩, ⟨0xBC, .absoluteX, 3, 4, true⟩]
  | .sta => [⟨0x85, .zeroPage, 2, 3, false⟩, ⟨0x95, .zeroPageX, 2, 4, false⟩, ⟨0x8D, .absolute, 3, 4, false⟩,
      ⟨0x9D, .absoluteX, 3, 5, false⟩, ⟨0x99, .absoluteY, 3, 5, false⟩, ⟨0x81, .indirectX, 2, 6, false⟩,
      ⟨0x91, .indirectY, 2, 6, false⟩]
  | .stx => [⟨0x86, .zeroPage, 2, 3, false⟩, ⟨0x96, .zeroPageY, 2, 4, false⟩, ⟨0x8E, .absolute, 3, 4, false⟩]
  | .sty => [⟨0x84, .zeroPage, 2, 3, false⟩, ⟨0x94, .zeroPageX, 2, 4, false⟩, ⟨0x8C, .absolute, 3, 4, false⟩]
  | .tax => [⟨0xAA, .implied, 1, 2, false⟩]
  | .tay => [⟨0xA8, .implied, 1, 2, false⟩]
  | .txa => [⟨0x8A, .implied, 1, 2, false⟩]
  | .tya => [⟨0x98, .implied, 1, 2, false⟩]
  | .tsx => [⟨0xBA, .implied, 1, 2, false⟩]
  | .txs => [⟨0x9A, .implied, 1, 2, false⟩]
  | .adc => [⟨0x69, .immediate, 2, 2, false⟩, ⟨0x65, .zeroPage, 2, 3, false⟩, ⟨0x75, .zeroPageX, 2, 4, false⟩,
      ⟨0x6D, .absolute, 3, 4, false⟩, ⟨0x7D, .absoluteX, 3, 4, true⟩, ⟨0x79, .absoluteY, 3, 4, true⟩,
      ⟨0x61, .indirectX, 2, 6, false⟩, ⟨0x71, .indirectY, 2, 5, true⟩]
  | .sbc => [⟨0xE9, .immediate, 2, 2, false⟩, ⟨0xE5, .zeroPage, 2, 3, false⟩, ⟨0xF5, .zeroPageX, 2, 4, false⟩,
      ⟨0xED, .absolute, 3, 4, false⟩, ⟨0xFD, .absoluteX, 3, 4, true⟩, ⟨0xF9, .absoluteY, 3, 4, true⟩,
      ⟨0xE1, .indirectX, 2, 6, false⟩, ⟨0xF1, .indirectY, 2, 5, true⟩]
  | .and => [⟨0x29, .immediate, 2, 2, false⟩, ⟨0x25, .zeroPage, 2, 3, false⟩, ⟨0x35, .zeroPageX, 2, 4, false⟩,
      ⟨0x2D, .absolute, 3, 4, false⟩, ⟨0x3D, .absoluteX, 3, 4, true⟩, ⟨0x39, .absoluteY, 3, 4, true⟩,
      ⟨0x21, .indirectX, 2, 6, false⟩, ⟨0x31, .indirectY, 2, 5, true⟩]
  | .ora => [⟨0x09, .immediate, 2, 2, false⟩, ⟨0x05, .zeroPage, 2, 3, false⟩, ⟨0x15, .zeroPageX, 2, 4, false⟩,
      ⟨0x0D, .absolute, 3, 4, false⟩, ⟨0x1D, .absoluteX, 3, 4, true⟩, ⟨0x19, .absoluteY, 3, 4, true⟩,
      ⟨0x01, .indirectX, 2, 6, false⟩, ⟨0x11, .indirectY, 2, 5, true⟩]
  | .eor => [⟨0x49, .immediate, 2, 2, false⟩, ⟨0x45, .zeroPage, 2, 3, false⟩, ⟨0x55, .zeroPageX, 2, 4, false⟩,
      ⟨0x4D, .absolute, 3, 4, false⟩, ⟨0x5D, .absoluteX, 3, 4, true⟩, ⟨0x59, .absoluteY, 3, 4, true⟩,
      ⟨0x41, .indirectX, 2, 6, false⟩, ⟨0x51, .indirectY, 2, 5, true⟩]
  | .cmp => [⟨0xC9, .immediate, 2, 2, false⟩, ⟨0xC5, .zeroPage, 2, 3, false⟩, ⟨0xD5, .zeroPageX, 2, 4, false⟩,
      ⟨0xCD, .absolute, 3, 4, false⟩, ⟨0xDD, .absoluteX, 3, 4, true⟩, ⟨0xD9, .absoluteY, 3, 4, true⟩,
      ⟨0xC1, .indirectX, 2, 6, false⟩, ⟨0xD1, .indirectY, 2, 5, true⟩]
  | .cpx => [⟨0xE0, .immediate, 2, 2, false⟩, ⟨0xE4, .zeroPage, 2, 3, false⟩, ⟨0xEC, .absolute, 3, 4, false⟩]
  | .cpy => [⟨0xC0, .immediate, 2, 2, false⟩, ⟨0xC4, .zeroPage, 2, 3, false⟩, ⟨0xCC, .absolute, 3, 4, false⟩]
  | .bit => [⟨0x24, .zeroPage, 2, 3, false⟩, ⟨0x2C, .absolute, 3, 4, false⟩]
  | .inc => [⟨0xE6, .zeroPage, 2, 5, false⟩, ⟨0xF6, .zeroPageX, 2, 6, false⟩, ⟨0xEE, .absolute, 3, 6, false⟩,
      ⟨0xFE, .absoluteX, 3, 7, false⟩]
  | .dec => [⟨0xC6, .zeroPage, 2, 5, false⟩, ⟨0xD6, .zeroPageX, 2, 6, false⟩, ⟨0xCE, .absolute, 3, 6, false⟩,
      ⟨0xDE, .absoluteX, 3, 7, false⟩]
  | .inx => [⟨0xE8, .implied, 1, 2, false⟩]
  | .iny => [⟨0xC8, .implied, 1, 2, false⟩]
  | .dex => [⟨0xCA, .implied, 1, 2, false⟩]
  | .dey => [⟨0x88, .implied, 1, 2, false⟩]
  | .asl => [⟨0x0A, .accumulator, 1, 2, false⟩, ⟨0x06, .zeroPage, 2, 5, false⟩, ⟨0x16, .zeroPageX, 2, 6, false⟩,
      ⟨0x0E, .absolute, 3, 6, false⟩, ⟨0x1E, .absoluteX, 3, 7, false⟩]
  | .lsr => [⟨0x4A, .accumulator, 1, 2, false⟩, ⟨0x46, .zeroPage, 2, 5, false⟩, ⟨0x56, .zeroPageX, 2, 6, false⟩,
      ⟨0x4E, .absolute, 3, 6, false⟩, ⟨0x5E, .absoluteX, 3, 7, false⟩]
  | .rol => [⟨0x2A, .accumulator, 1, 2, false⟩, ⟨0x26, .zeroPage, 2, 5, false⟩, ⟨0x36, .zeroPageX, 2, 6, false⟩,
      ⟨0x2E, .absolute, 3, 6, false⟩, ⟨0x3E, .absoluteX, 3, 7, false⟩]
  | .ror => [⟨0x6A, .accumulator, 1, 2, false⟩, ⟨0x66, .zeroPage, 2, 5, false⟩, ⟨0x76, .zeroPageX, 2, 6, false⟩,
      ⟨0x6E, .absolute, 3, 6, false⟩, ⟨0x7E, .absoluteX, 3, 7, false⟩]
  | .jmp => [⟨0x4C, .absolute, 3, 3, false⟩, ⟨0x6C, .indirect, 3, 5, false⟩]
  | .jsr => [⟨0x20, .absolute, 3, 6, false⟩]
  | .rts => [⟨0x60, .implied, 1, 6, false⟩]
  | .rti => [⟨0x40, .implied, 1, 6, false⟩]
  | .brk => [⟨0x00, .implied, 1, 7, false⟩]
  | .nop => [⟨0xEA, .implied, 1, 2, false⟩]
  | .bcc => [⟨0x90, .relative, 2, 2, false⟩]
  | .bcs => [⟨0xB0, .relative, 2, 2, false⟩]
  | .beq => [⟨0xF0, .relative, 2, 2, false⟩]
  | .bne => [⟨0xD0, .relative, 2, 2, false⟩]
  | .bmi => [⟨0x30, .relative, 2, 2, false⟩]
  | .bpl => [⟨0x10, .relative, 2, 2, false⟩]
  | .bvc => [⟨0x50, .relative, 2, 2, false⟩]
  | .bvs => [⟨0x70, .relative, 2, 2, false⟩]
  | .pha => [⟨0x48, .implied, 1, 3, false⟩]
  | .php => [⟨0x08, .implied, 1, 3, false⟩]
  | .plp => [⟨0x28, .implied, 1, 4, false⟩]
  | .pla => [⟨0x68, .implied, 1, 4, false⟩]
  | .clc => [⟨0x18, .implied, 1, 2, false⟩]
  | .sec => [⟨0x38, .implied, 1, 2, false⟩]
  | .cli => [⟨0x58, .implied, 1, 2, false⟩]
  | .sei => [⟨0x78, .implied, 1, 2, false⟩]
  | .cld => [⟨0xD8, .implied, 1, 2, false⟩]
  | .sed => [⟨0xF8, .implied, 1, 2, false⟩]
  | .clv => [⟨0xB8, .implied, 1, 2, false⟩]

/-- The 105 bytes that R149 lists. -/
def illegalBytes : List Byte :=
  [0x02, 0x03, 0x04, 0x07, 0x0B, 0x0C, 0x0F, 0x12, 0x13, 0x14, 0x17, 0x1A, 0x1B, 0x1C, 0x1F] ++
  [0x22, 0x23, 0x27, 0x2B, 0x2F, 0x32, 0x33, 0x34, 0x37, 0x3A, 0x3B, 0x3C, 0x3F, 0x42, 0x43, 0x44] ++
  [0x47, 0x4B, 0x4F, 0x52, 0x53, 0x54, 0x57, 0x5A, 0x5B, 0x5C, 0x5F, 0x62, 0x63, 0x64, 0x67, 0x6B] ++
  [0x6F, 0x72, 0x73, 0x74, 0x77, 0x7A, 0x7B, 0x7C, 0x7F, 0x80, 0x82, 0x83, 0x87, 0x89, 0x8B, 0x8F] ++
  [0x92, 0x93, 0x97, 0x9B, 0x9C, 0x9E, 0x9F, 0xA3, 0xA7, 0xAB, 0xAF, 0xB2, 0xB3, 0xB7, 0xBB, 0xBF] ++
  [0xC2, 0xC3, 0xC7, 0xCB, 0xCF, 0xD2, 0xD3, 0xD4, 0xD7, 0xDA, 0xDB, 0xDC, 0xDF, 0xE2, 0xE3, 0xE7] ++
  [0xEB, 0xEF, 0xF2, 0xF3, 0xF4, 0xF7, 0xFA, 0xFB, 0xFC, 0xFF]

/-- An instruction's bytes are those of its encoding: the opcode byte, the one operand byte, the operand word. -/
def opcodeOf (i : Instr) : Byte := (encode i).getD 0 0

/-- The operand byte of a two-byte instruction (R130). -/
def operandByte (i : Instr) : Byte := (encode i).getD 1 0

/-- The operand word of a three-byte instruction (R130), little-endian (R80). -/
def operandWord (i : Instr) : Word := word ((encode i).getD 2 0) ((encode i).getD 1 0)

/-- `i` is an instruction of this row of its mnemonic's table. -/
def HasRow (i : Instr) (r : Row) : Prop :=
  r ∈ rowsOf i.mnemonic ∧ opcodeOf i = r.opcode ∧ i.mode = r.mode ∧ i.length = r.length

/-! ## The processor's registers and flags, and everything else -/

/-- What an instruction rule speaks of: the registers, the flags by the positions of R26, and the cost of the step. -/
structure Cpu where
  a : Byte
  x : Byte
  y : Byte
  sp : Byte
  pc : Word
  c : Bool
  z : Bool
  i : Bool
  d : Bool
  b : Bool
  u : Bool
  v : Bool
  n : Bool
  cost : Nat
deriving DecidableEq, Repr

/-- The processor in a state. -/
def State.cpu (s : State) : Cpu :=
  { a := s.a, x := s.x, y := s.y, sp := s.sp, pc := s.pc
    c := s.p.getLsbD 0, z := s.p.getLsbD 1, i := s.p.getLsbD 2, d := s.p.getLsbD 3
    b := s.p.getLsbD 4, u := s.p.getLsbD 5, v := s.p.getLsbD 6, n := s.p.getLsbD 7
    cost := s.stepCycles }

/-- `SetZN(v)` (R13). -/
def Cpu.setZN (c : Cpu) (v : Byte) : Cpu := { c with z := v == 0, n := v.getLsbD 7 }

/-- Everything the processor's registers, flags and cost are not. -/
structure Outside where
  cyc : Nat
  halted : Bool
  fault : Option InvalidOpcode
  dmaStall : Nat
  ram : Memory
  nmiPrev : Bool
  ppu : Ppu
  apu : Apu
  params : Params
  resetReq : Bool
  stopReq : Bool
  joypadReads : Nat
  events : List Event
deriving DecidableEq, Repr

/-- What surrounds the processor in a state. -/
def State.outside (s : State) : Outside :=
  { cyc := s.cyc, halted := s.halted, fault := s.fault, dmaStall := s.dmaStall, ram := s.ram, nmiPrev := s.nmiPrev
    ppu := s.ppu, apu := s.apu, params := s.params, resetReq := s.resetReq, stopReq := s.stopReq
    joypadReads := s.joypadReads, events := s.events }

/-! ## Operands and completion -/

/-- The memory operand of an instruction, by its mode (R134 to R145), and the state its pointer reads leave. -/
def operandOf (i : Instr) (s : State) : Resolved :=
  match i.mode with
  | .zeroPage => zeroPage (operandByte i) s
  | .zeroPageX => zeroPageX (operandByte i) s
  | .zeroPageY => zeroPageY (operandByte i) s
  | .absolute => absolute (operandWord i) s
  | .absoluteX => absoluteX (operandWord i) s
  | .absoluteY => absoluteY (operandWord i) s
  | .indirectX => indirectX (operandByte i) s
  | .indirectY => indirectY (operandByte i) s
  | .indirect => indirect (operandWord i) s
  | .implied | .accumulator | .immediate | .relative => (⟨0, false⟩, s)

/-- The address of the memory operand. -/
def eaOf (i : Instr) (s : State) : Word := (operandOf i s).1.ea

/-- The value an instruction reads (R135, R136, R160), and the state the reads leave. -/
def sourceOf (i : Instr) (s : State) : Byte × State :=
  match i.mode with
  | .immediate => (operandByte i, s)
  | .accumulator => (s.a, s)
  | _ => busRead (eaOf i s) (operandOf i s).2

/-- `i` runs in `s` and completes: the registers, flags and cost are those of `after`, and everything else is as in `mid`, the
state that the instruction's bus accesses leave. -/
def Completes (i : Instr) (s mid : State) (after : Cpu) : Prop :=
  ∃ t : State, exec i s = .next t ∧ t.cpu = after ∧ t.outside = mid.outside

/-- The end of an instruction that does not write `PC` (R25, R131): `PC` moves past it, and the cost is the row's, the page
penalty (R466) and the stall (R116). -/
def Cpu.next (c : Cpu) (i : Instr) (r : Row) (s mid : State) : Cpu :=
  { c with
    pc := s.pc + BitVec.ofNat 16 r.length
    cost := r.cycles + (if r.penalty = true ∧ (operandOf i s).1.crossed = true then 1 else 0) + mid.dmaStall }

/-- The condition of each branch (R228 to R235); no other mnemonic branches. -/
def branchTaken (m : Mnemonic) (c : Cpu) : Bool :=
  match m with
  | .bcc => !c.c
  | .bcs => c.c
  | .beq => c.z
  | .bne => !c.z
  | .bmi => c.n
  | .bpl => !c.n
  | .bvc => !c.v
  | .bvs => c.v
  | _ => false

/-- The length table of R340, in numbers. -/
def lengthTableOfR340 : List Nat :=
  [10, 254, 20, 2, 40, 4, 80, 6, 160, 8, 60, 10, 14, 12, 26, 14, 12, 16, 24, 18, 48, 20, 96, 22, 192, 24, 72, 26, 16, 28, 32, 30]

/-! ## Frames -/

/-- The registers of R22. -/
inductive Reg where
  | a
  | x
  | y
  | sp
deriving DecidableEq, Repr

/-- A register's value. -/
def State.reg (s : State) : Reg → Byte
  | .a => s.a
  | .x => s.x
  | .y => s.y
  | .sp => s.sp

/-- The column "written by" of R22. -/
def writesReg (i : Instr) (brk : BrkMode) : Reg → Prop
  | .a => i.mnemonic ∈ [.lda, .txa, .tya, .pla, .adc, .sbc, .and, .ora, .eor] ∨
      (i.mnemonic ∈ [.asl, .lsr, .rol, .ror] ∧ i.mode = .accumulator)
  | .x => i.mnemonic ∈ [.ldx, .tax, .tsx, .inx, .dex]
  | .y => i.mnemonic ∈ [.ldy, .tay, .iny, .dey]
  | .sp => i.mnemonic ∈ [.txs, .pha, .php, .pla, .plp, .jsr, .rts, .rti] ∨ (i.mnemonic = .brk ∧ brk = .interrupt)

/-- The column "written by" of R27; `B` and `U` are those of R28, which PLP and RTI load. -/
def writesFlag (i : Instr) (brk : BrkMode) : Flag → Prop
  | .c => i.mnemonic ∈ [.adc, .sbc, .cmp, .cpx, .cpy, .asl, .lsr, .rol, .ror, .clc, .sec, .plp, .rti]
  | .z | .n => i.mnemonic ∈
      [.lda, .ldx, .ldy, .tax, .tay, .txa, .tya, .tsx, .pla, .adc, .sbc, .and, .ora, .eor, .cmp, .cpx, .cpy, .bit, .inc, .dec] ++
      [.inx, .iny, .dex, .dey, .asl, .lsr, .rol, .ror, .plp, .rti]
  | .i => i.mnemonic ∈ [.sei, .cli, .plp, .rti] ∨ (i.mnemonic = .brk ∧ brk = .interrupt)
  | .d => i.mnemonic ∈ [.sed, .cld, .plp, .rti]
  | .v => i.mnemonic ∈ [.adc, .sbc, .bit, .clv, .plp, .rti]
  | .b | .u => i.mnemonic ∈ [.plp, .rti]

/-- The addresses an instruction stores to, in order: the operand of a store or of a read-modify-write on memory (R84, R160),
the stack bytes of a push (R21). -/
def storesTo (i : Instr) (s : State) : List Word :=
  match i.mnemonic with
  | .sta | .stx | .sty | .inc | .dec => [eaOf i s]
  | .asl | .lsr | .rol | .ror => if i.mode = .accumulator then [] else [eaOf i s]
  | .pha | .php => [stackAddr s.sp]
  | .jsr => [stackAddr s.sp, stackAddr (s.sp - 1)]
  | .brk =>
    if s.params.brkMode = .interrupt then [stackAddr s.sp, stackAddr (s.sp - 1), stackAddr (s.sp - 2)] else []
  | _ => []

/-- Two addresses of the RAM window that are images of the same byte (R91). -/
def SameRamByte (a b : Word) : Prop := a.toNat < 0x2000 ∧ b.toNat < 0x2000 ∧ a.toNat % 0x800 = b.toNat % 0x800

/-- The address is one of RAM or program ROM, where a byte is held and a read has no side effect (R85). -/
def HoldsByte (a : Word) : Prop := a.toNat < 0x2000 ∨ 0x8000 ≤ a.toNat

end Sys2Proof.Machine
end

