-- ==== Sys2Proof/Certificates/Slice0/Obligations.lean ====
section
/-! DEFINITION. The statements for the provers, by part of the machine: encoding, steps, interrupts, instructions, operands, frames,
bus, PPU, APU. -/

section Statements

open Sys2Proof Sys2Proof.Machine

/-! ## Encoding -/

/-- One word per family, written out from its rule's encoding table, decodes to the instruction it stands for (R148, R152). -/
def Obligations.SampleWordsDecode : Prop :=
  decode [0xA9, 0xC0] = .ok (.ldaImm 0xC0) [] ∧
  decode [0x8D, 0x34, 0x12] = .ok (.staAbs 0x1234) [] ∧
  decode [0xBA] = .ok .tsx [] ∧
  decode [0x71, 0x10] = .ok (.adcIndY 0x10) [] ∧
  decode [0xDE, 0x34, 0x12] = .ok (.decAbsX 0x1234) [] ∧
  decode [0x6A] = .ok .rorA [] ∧
  decode [0x6C, 0xFF, 0x02] = .ok (.jmpInd 0x02FF) [] ∧
  decode [0x30, 0x80] = .ok (.bmi 0x80) [] ∧
  decode [0x28] = .ok .plp [] ∧
  decode [0xF8] = .ok .sed []

/-- Every instruction is a row of its mnemonic's encoding table and every row is an instruction (R148), and the opcode byte alone
determines mnemonic, mode and length (R130). -/
def Obligations.InstructionsAreTheTableRows : Prop :=
  (∀ i : Instr, ∃ r : Row, HasRow i r) ∧
  (∀ (m : Mnemonic) (r : Row), r ∈ rowsOf m → ∃ i : Instr, i.mnemonic = m ∧ HasRow i r) ∧
  (∀ i j : Instr, opcodeOf i = opcodeOf j → i.mnemonic = j.mnemonic ∧ i.mode = j.mode ∧ i.length = j.length)

/-- Decoding the bytes of a well-formed instruction, whatever follows them, gives it back with every operand (R130, R148). -/
def Obligations.DecodeOfEncode : Prop :=
  ∀ (i : Instr) (rest : List Byte), i.wellFormed = true →
    (encode i).length = i.length ∧ decode (encode i ++ rest) = .ok i rest

/-- Bytes that decode are the bytes of the decoded instruction and the rest: each word has one meaning (R130, R132). -/
def Obligations.EncodeOfDecode : Prop :=
  ∀ (bytes : List Byte) (i : Instr) (rest : List Byte), decode bytes = .ok i rest →
    i.wellFormed = true ∧ bytes = encode i ++ rest

/-- The decoder rejects as illegal exactly the 105 bytes of R149, whatever follows them. -/
def Obligations.IllegalBytesAreRejected : Prop :=
  illegalBytes.length = 105 ∧
  ∀ (op : Byte) (rest : List Byte), op ∈ illegalBytes ↔ decode (op :: rest) = .rejected (.illegalOpcode op)

/-! ## Steps -/

/-- Where the bytes at `PC` are memory and decode to `i`, a step is `exec` of `i` at the state in which the step begins (nothing
sent yet, no stall, no cost), followed by the tick batch and the observer; the fetch itself changes nothing (R9, R131), and the
observer's call, where one is attached, is an event and changes nothing (R432). That no batch follows where the cost is 0, which is
BRK in halt mode alone, is R226's word, where R9 would run a batch of 0 cycles: the model's choice (DEDUCED, log 8). -/
def Obligations.StepRunsTheDecodedInstruction : Prop :=
  ∀ (s : State) (i : Instr) (rest : List Byte), s.Runs →
    (∀ k : Nat, k < i.length → HoldsByte (s.pc + BitVec.ofNat 16 k)) →
    decode [s.memByte s.pc, s.memByte (s.pc + 1), s.memByte (s.pc + 2)] = .ok i rest →
    step s =
      (match exec i { s with events := [], dmaStall := 0, stepCycles := 0 } with
        | .next t => .next (notifyObserver (if t.stepCycles = 0 then t else tickBatch t.stepCycles t))
        | .fault f => .fault f
        | .refused f => .refused f) ∧
    ∀ t : State, notifyObserver t = if t.params.observer = true then { t with events := t.events ++ [.observer] } else t

/-- The opcode and then only the operand bytes the length calls for are read, in address order, each by one bus read with its
side effects (R81, R111), and a step executes what was fetched and then ticks and calls the observer (R9, R120, R432). That no batch
follows where the cost is 0 is R226's word against R9's: the model's choice (DEDUCED, log 8). -/
def Obligations.FetchReadsInAddressOrder : Prop :=
  ∀ s : State,
    let b0 := busRead s.pc s
    let b1 := busRead (s.pc + 1) b0.2
    let b2 := busRead (s.pc + 2) b1.2
    (opcodeLength b0.1 = none → fetch s = .illegal b0.1 b0.2) ∧
    (opcodeLength b0.1 = some 1 → ∃ i : Instr, decode [b0.1] = .ok i [] ∧ fetch s = .instr i b0.2) ∧
    (opcodeLength b0.1 = some 2 → ∃ i : Instr, decode [b0.1, b1.1] = .ok i [] ∧ fetch s = .instr i b1.2) ∧
    (opcodeLength b0.1 = some 3 → ∃ i : Instr, decode [b0.1, b1.1, b2.1] = .ok i [] ∧ fetch s = .instr i b2.2) ∧
    (opcodeLength b0.1 = none ∨ opcodeLength b0.1 = some 1 ∨ opcodeLength b0.1 = some 2 ∨ opcodeLength b0.1 = some 3) ∧
    (s.Runs → ∀ (i : Instr) (t : State), fetch { s with events := [], dmaStall := 0, stepCycles := 0 } = .instr i t →
      ∃ u : State, exec i t = .next u ∧
        step s = .next (notifyObserver (if u.stepCycles = 0 then u else tickBatch u.stepCycles u)))

/-- Every instruction answers a next state in every state (R160, R180, R210, R220, R250), and so does every step; a failed
machine's step, with no reset requested, changes nothing but what a stop request does (R9, R401). That a step which fetches an
illegal opcode, and each step of the failed machine, answers a next state with the field `fault`, where R400 and R401 say that the
run is aborted, is the model's choice (DESIGN CHOICE, log 10). That the request is consumed is its choice too (log 3): the last
clause leaves `stop_req` open. -/
def Obligations.EveryStepAnswersANextState : Prop :=
  (∀ (i : Instr) (s : State), ∃ t : State, exec i s = .next t) ∧
  (∀ s : State, ∃ t : State, step s = .next t) ∧
  (∀ s : State, s.fault ≠ none → s.resetReq = false →
    ∃ t : State, step s = .next t ∧ t.setStopReq s.stopReq = s.setHalted (s.halted || s.stopReq))

/-- R401: an illegal opcode byte latches the fault with the byte and its address; `PC`, every register and flag, memory and
every device are as the opcode fetch left them, no time passes, and no later step does anything until reset, but for what a stop
request does (R9). That the failure is a next state and no fault outcome is the model's choice (DESIGN CHOICE, log 10). -/
def Obligations.InvalidOpcodeLatchesTheFault : Prop :=
  ∀ (s m : State) (op : Byte), s.Runs → op ∈ illegalBytes → busRead s.pc (beginInstruction s) = (op, m) →
    ∃ t : State, step s = .next t ∧ t.fault = some ⟨op, s.pc⟩ ∧
      t.cpu = { s.cpu with cost := 0 } ∧
      t.outside = { m.outside with fault := some ⟨op, s.pc⟩ } ∧
      t.cyc = s.cyc ∧ t.ram = s.ram ∧
      step t = .next t ∧
      ∃ u : State, step (t.setStopReq true) = .next u ∧ u.setStopReq false = t.setHalted true

/-- R433, R434, in a failed machine too: a halted machine's step changes nothing; a stop request sets `halted` and nothing else,
between steps; `halted` is set by BRK in halt mode and by the stop request alone, and cleared by reset alone. (That the request is
consumed is the model's choice, log 3: the statements leave `stop_req` open.) -/
def Obligations.HaltAndStop : Prop :=
  (∀ s : State, s.halted = true → s.resetReq = false →
    ∃ t : State, step s = .next t ∧ t.setStopReq s.stopReq = s) ∧
  (∀ s : State, s.stopReq = true → s.resetReq = false →
    ∃ t : State, step s = .next t ∧ t.setStopReq s.stopReq = s.setHalted true) ∧
  (∀ s t : State, step s = .next t → s.resetReq = false →
    (s.halted = true → t.halted = true) ∧
    (t.halted = true → s.halted = true ∨ s.stopReq = true ∨
      (s.params.brkMode = .halt ∧ ∃ u : State, fetch (beginInstruction s) = .instr .brk u)))

/-- From R440: the reset step, from any state in which reset is requested (a latched fault, a stopped machine, a stop request and
pending interrupts included): every register and device field, the vector, the memories left alone, and what the step's own tick
batch of seven cycles adds. The requests and the events are left open here. `D` is cleared, as R440 has it, where R29 says that
reset does not change it: the model's choice (DESIGN CHOICE, log 17). -/
def Obligations.ResetStep : Prop :=
  ∀ s : State, s.resetReq = true → ∃ t : State, step s = .next t ∧
    t.cpu =
      { a := 0x00, x := 0x00, y := 0x00, sp := 0xFD, pc := word (s.memByte 0xFFFD) (s.memByte 0xFFFC)
        c := false, z := false, i := true, d := false, b := false, u := true, v := false, n := false, cost := 7 } ∧
    t.outside =
      { s.outside with
        cyc := 7, halted := false, fault := none, dmaStall := 0, nmiPrev := false
        ppu :=
          { ctrl := 0x00, mask := 0x00, vblank := false, sprite0Hit := false, spriteOverflow := false
            oamAddr := 0x00, scrollX := 0x00, scrollY := 0x00, vramAddr := 0x0000, w := false, readBuf := 0x00
            scanline := 0, cycle := 21, nmiPending := false, frameComplete := false
            vram := s.ppu.vram, palette := s.ppu.palette, oam := s.ppu.oam }
        apu :=
          { pulse1 := { Pulse.afterReset with seqPos := 3 }, pulse2 := { Pulse.afterReset with seqPos := 3 }
            tri := Triangle.afterReset, fc := { FrameCounter.afterReset with divider := 7 }, apuOdd := true }
        resetReq := t.resetReq, stopReq := t.stopReq, events := t.events } ∧
    Pulse.afterReset =
      { enabled := false, duty := 0, seqPos := 0, period := 0, timer := 0
        env := { start := false, loop := false, constant := false, volume := 0, divider := 0, decay := 0 }
        sweep := { enabled := false, period := 0, negate := false, shift := 0, reload := false, divider := 0 }
        length := 0 } ∧
    Triangle.afterReset =
      { enabled := false, control := false, linearReloadValue := 0, linear := 0, linearReload := false
        period := 0, timer := 0, seqPos := 0, length := 0 } ∧
    FrameCounter.afterReset = { mode := false, irqInhibit := false, step := 0, divider := 0, frameIrq := false }

/-- The invariant holds right after reset (R28, R42, R53, R441). -/
def Obligations.InvHoldsAtReset : Prop := State.reset.Inv

/-- Every step keeps the invariant, from every state that has it: memories in canonical form and within their sizes, U reads 1 and
B reads 0, the scanline timer and the frame counter in range, the stall one of 0, 513, 514 (R28, R31, R42, R53). -/
def Obligations.StepKeepsTheInvariant : Prop :=
  ∀ s t : State, s.Inv → step s = .next t → t.Inv

/-- Device time is the cost of the steps, three dots and one APU tick for each cycle, and it advances in tick batches only: a step
that runs (an interrupt entry or an instruction) moves `cyc`, the dot position and the APU parity by exactly its cost, and a step
costs 0 only where it stops the run or fails (R107, R120, R121, R464, R469). -/
def Obligations.TimeAdvancesByTheCost : Prop :=
  ∀ s t : State, s.resetReq = false → s.stopReq = false → s.fault = none → s.halted = false →
    s.ppu.TimerOk → step s = .next t →
    t.cyc = s.cyc + t.stepCycles ∧
    t.ppu.scanline * 341 + t.ppu.cycle = (s.ppu.scanline * 341 + s.ppu.cycle + 3 * t.stepCycles) % 89342 ∧
    t.apu.apuOdd = (s.apu.apuOdd ^^ decide (t.stepCycles % 2 = 1)) ∧
    (t.stepCycles = 0 → t.halted = true ∨ t.fault ≠ none)

/-- No step changes a parameter: program ROM and character ROM hold what they held, and so do the modes (R7, R103, R104). -/
def Obligations.ParametersNeverChange : Prop :=
  ∀ s t : State, step s = .next t → t.params = s.params

/-! ## Interrupts -/

/-- R413: NMI before IRQ, IRQ only where it is delivered, requested and not masked by `I`; and reset goes before both, an
interrupt before any fetch. -/
def Obligations.ArbitrationOrder : Prop :=
  (∀ s : State, s.ppu.nmiPending = true → arbitrate s = some .nmi) ∧
  (∀ s : State, s.ppu.nmiPending = false → s.params.irqDelivery = .on → s.apu.fc.frameIrq = true → s.cpu.i = false →
    arbitrate s = some .irq) ∧
  (∀ s : State, s.ppu.nmiPending = false →
    (s.params.irqDelivery = .off ∨ s.apu.fc.frameIrq = false ∨ s.cpu.i = true) → arbitrate s = none) ∧
  (∀ s : State, s.resetReq = true → step s = .next (resetStep (sampleStop s))) ∧
  (∀ (s : State) (k : Interrupt), s.resetReq = false → s.stopReq = false → s.fault = none → s.halted = false →
    arbitrate s = some k → step s = .next (interruptStep k s))

/-- R415, R416, R407: the interrupt-entry step, whatever stands at `PC`: the return address and the status copy (B clear, U set) on
the stack, `I` set and no other flag changed, `PC` from the vector, the NMI request acknowledged, and the step's tick batch of
seven cycles (R9, R120), before which `nmi_prev` is sampled, here always clear (R321), and in which frame-ready is called where
vblank entry raises a new request (R322). The stall is 0 from the step's start (R116). Nothing else changes. -/
def Obligations.InterruptEntryStep : Prop :=
  ∀ (s : State) (k : Interrupt), s.resetReq = false → s.stopReq = false → s.fault = none → s.halted = false →
    arbitrate s = some k →
    ∃ t : State, step s = .next t ∧
      (let vector : Word := match k with | .nmi => 0xFFFA | .irq => 0xFFFE
       t.cpu =
        { s.cpu with
          sp := s.sp - 3, i := true, pc := word (s.memByte (vector + 1)) (s.memByte vector), cost := 7 }) ∧
      t.memByte (0x0100 + zext16 s.sp) = hiByte s.pc ∧
      t.memByte (0x0100 + zext16 (s.sp - 1)) = loByte s.pc ∧
      t.memByte (0x0100 + zext16 (s.sp - 2)) = (s.p &&& 0xEF) ||| 0x20 ∧
      (∀ a : Word, ¬ SameRamByte (0x0100 + zext16 s.sp) a → ¬ SameRamByte (0x0100 + zext16 (s.sp - 1)) a →
        ¬ SameRamByte (0x0100 + zext16 (s.sp - 2)) a → t.memByte a = s.memByte a) ∧
      (let ppu := Ppu.dots 21 { s.ppu with nmiPending := false, frameComplete := false }
       t.outside =
        { s.outside with
          ram := t.ram, ppu := ppu, apu := Apu.ticks 7 s.apu, cyc := s.cyc + 7, dmaStall := 0, nmiPrev := false
          events := if ppu.nmiPending then [.frameReady] else [] })

/-- RTI undoes an entry: after NMI or IRQ entry it is back at the interrupted instruction, after BRK in interrupt mode at the byte
after the one BRK skips, with the status and the stack pointer as before (R225, R226, R415, R421, R422). -/
def Obligations.RtiUndoesTheEntry : Prop :=
  (∀ (s : State) (k : Interrupt), s.StatusOk →
    ∃ t : State, exec .rti (interruptEntry k s) = .next t ∧
      t.pc = s.pc ∧ t.p = s.p ∧ t.sp = s.sp ∧ t.a = s.a ∧ t.x = s.x ∧ t.y = s.y) ∧
  (∀ s : State, s.StatusOk → s.params.brkMode = .interrupt →
    ∃ t u : State, exec .brk s = .next t ∧ exec .rti t = .next u ∧
      u.pc = s.pc + 2 ∧ u.p = s.p ∧ u.sp = s.sp ∧ u.a = s.a ∧ u.x = s.x ∧ u.y = s.y)

/-- RTS after JSR is at the instruction after the JSR, with the stack pointer and every other register as before, for every
address and every stack pointer, wraps included (R222, R223). -/
def Obligations.RtsReturnsAfterJsr : Prop :=
  ∀ (s : State) (target : Word), ∃ t u : State, exec (.jsrAbs target) s = .next t ∧ t.pc = target ∧
    exec .rts t = .next u ∧ u.cpu = { s.cpu with pc := s.pc + 3, cost := 6 + s.dmaStall } ∧
    ∀ a : Word, ¬ SameRamByte (0x0100 + zext16 s.sp) a → ¬ SameRamByte (0x0100 + zext16 (s.sp - 1)) a →
      u.memByte a = s.memByte a

/-! ## Instructions: results, completion and what is left alone -/

/-- LDA, LDX, LDY (R161 to R163) in every mode. -/
def Obligations.Loads : Prop :=
  ∀ (i : Instr) (s : State),
    let m := sourceOf i s
    (i.mnemonic = .lda → ∃ r : Row, HasRow i r ∧
      Completes i s m.2 ((({ s.cpu with a := m.1 } : Cpu).setZN m.1).next i r s m.2)) ∧
    (i.mnemonic = .ldx → ∃ r : Row, HasRow i r ∧
      Completes i s m.2 ((({ s.cpu with x := m.1 } : Cpu).setZN m.1).next i r s m.2)) ∧
    (i.mnemonic = .ldy → ∃ r : Row, HasRow i r ∧
      Completes i s m.2 ((({ s.cpu with y := m.1 } : Cpu).setZN m.1).next i r s m.2))

/-- STA, STX, STY (R164 to R166) in every mode: one bus write of the register to the effective address, nothing read but the
pointer, no flag written; a store to memory changes the byte it stores and no other. -/
def Obligations.Stores : Prop :=
  ∀ (i : Instr) (s : State) (v : Byte),
    (i.mnemonic = .sta ∧ v = s.a ∨ i.mnemonic = .stx ∧ v = s.x ∨ i.mnemonic = .sty ∧ v = s.y) →
    (∃ r : Row, HasRow i r ∧
      (let mid := busWrite (eaOf i s) v (operandOf i s).2
       Completes i s mid (s.cpu.next i r s mid))) ∧
    (∀ t : State, exec i s = .next t →
      (∀ a : Word, SameRamByte (eaOf i s) a → t.memByte a = v) ∧
      (∀ a : Word, ¬ SameRamByte (eaOf i s) a → t.memByte a = s.memByte a))

/-- TAX, TAY, TXA, TYA, TSX and TXS, which writes no flag (R167 to R172). -/
def Obligations.Transfers : Prop :=
  ∀ (i : Instr) (s : State),
    (i.mnemonic = .tax → ∃ r : Row, HasRow i r ∧
      Completes i s s ((({ s.cpu with x := s.a } : Cpu).setZN s.a).next i r s s)) ∧
    (i.mnemonic = .tay → ∃ r : Row, HasRow i r ∧
      Completes i s s ((({ s.cpu with y := s.a } : Cpu).setZN s.a).next i r s s)) ∧
    (i.mnemonic = .txa → ∃ r : Row, HasRow i r ∧
      Completes i s s ((({ s.cpu with a := s.x } : Cpu).setZN s.x).next i r s s)) ∧
    (i.mnemonic = .tya → ∃ r : Row, HasRow i r ∧
      Completes i s s ((({ s.cpu with a := s.y } : Cpu).setZN s.y).next i r s s)) ∧
    (i.mnemonic = .tsx → ∃ r : Row, HasRow i r ∧
      Completes i s s ((({ s.cpu with x := s.sp } : Cpu).setZN s.sp).next i r s s)) ∧
    (i.mnemonic = .txs → ∃ r : Row, HasRow i r ∧
      Completes i s s (({ s.cpu with sp := s.x } : Cpu).next i r s s))

/-- ADC (R181), on integers: the sum modulo 256, C where it exceeds 255, V where the true signed sum leaves -128 to 127, and
nothing depends on D. -/
def Obligations.AddWithCarry : Prop :=
  ∀ (i : Instr) (s : State), i.mnemonic = .adc → ∃ r : Row, HasRow i r ∧
    (let m := sourceOf i s
     let sum : Nat := s.a.toNat + m.1.toNat + (if s.cpu.c then 1 else 0)
     let signed : Int := s.a.toInt + m.1.toInt + (if s.cpu.c then 1 else 0)
     Completes i s m.2
      ((({ s.cpu with
          a := BitVec.ofNat 8 sum, c := decide (255 < sum), v := decide (signed < -128 ∨ 127 < signed) } : Cpu).setZN
        (BitVec.ofNat 8 sum)).next i r s m.2))

/-- SBC (R182), on integers: the difference modulo 256, C where there is no borrow, V where the true signed difference leaves -128
to 127. -/
def Obligations.SubtractWithBorrow : Prop :=
  ∀ (i : Instr) (s : State), i.mnemonic = .sbc → ∃ r : Row, HasRow i r ∧
    (let m := sourceOf i s
     let diff : Int := s.a.toNat - m.1.toNat - (if s.cpu.c then 0 else 1)
     let signed : Int := s.a.toInt - m.1.toInt - (if s.cpu.c then 0 else 1)
     Completes i s m.2
      ((({ s.cpu with
          a := BitVec.ofInt 8 diff, c := decide (0 ≤ diff), v := decide (signed < -128 ∨ 127 < signed) } : Cpu).setZN
        (BitVec.ofInt 8 diff)).next i r s m.2))

/-- AND, ORA, EOR (R184 to R186): each bit of the result, Z and N, no other flag. -/
def Obligations.BitwiseLogic : Prop :=
  ∀ (i : Instr) (s : State) (v : Byte),
    let m := sourceOf i s
    (i.mnemonic = .and ∧ (∀ k : Nat, v.getLsbD k = (s.a.getLsbD k && m.1.getLsbD k)) ∨
      i.mnemonic = .ora ∧ (∀ k : Nat, v.getLsbD k = (s.a.getLsbD k || m.1.getLsbD k)) ∨
      i.mnemonic = .eor ∧ (∀ k : Nat, v.getLsbD k = (s.a.getLsbD k ^^ m.1.getLsbD k))) →
    ∃ r : Row, HasRow i r ∧ Completes i s m.2 ((({ s.cpu with a := v } : Cpu).setZN v).next i r s m.2)

/-- CMP, CPX, CPY (R187 to R189): an unsigned comparison, written to C, Z and N alone; and BIT (R190): Z from the masked operand, N
and V from its bits 7 and 6. -/
def Obligations.ComparesAndBitTest : Prop :=
  ∀ (i : Instr) (s : State),
    let m := sourceOf i s
    (∀ v : Byte, (i.mnemonic = .cmp ∧ v = s.a ∨ i.mnemonic = .cpx ∧ v = s.x ∨ i.mnemonic = .cpy ∧ v = s.y) →
      ∃ r : Row, HasRow i r ∧
        Completes i s m.2
          (({ s.cpu with
              c := decide (m.1.toNat ≤ v.toNat), z := decide (v = m.1)
              n := decide (128 ≤ ((v.toNat : Int) - m.1.toNat) % 256) } : Cpu).next i r s m.2)) ∧
    (i.mnemonic = .bit → ∃ r : Row, HasRow i r ∧
      Completes i s m.2
        (({ s.cpu with
            z := decide (∀ k : Nat, k < 8 → (s.a.getLsbD k && m.1.getLsbD k) = false)
            n := m.1.getLsbD 7, v := m.1.getLsbD 6 } : Cpu).next i r s m.2))

/-- INC and DEC on memory (R191, R192), one read then one write to the same address, and INX, INY, DEX, DEY (R193 to R196): the
operand plus or minus one modulo 256, Z and N alone. -/
def Obligations.IncrementAndDecrement : Prop :=
  ∀ (i : Instr) (s : State),
    let m := sourceOf i s
    (∀ v : Byte,
      (i.mnemonic = .inc ∧ v.toNat = (m.1.toNat + 1) % 256 ∨ i.mnemonic = .dec ∧ v.toNat = (m.1.toNat + 255) % 256) →
      ∃ r : Row, HasRow i r ∧
        (let mid := busWrite (eaOf i s) v m.2
         Completes i s mid ((s.cpu.setZN v).next i r s mid))) ∧
    (∀ v : Byte,
      (i.mnemonic = .inx ∧ v.toNat = (s.x.toNat + 1) % 256 ∨ i.mnemonic = .dex ∧ v.toNat = (s.x.toNat + 255) % 256) →
      ∃ r : Row, HasRow i r ∧ Completes i s s ((({ s.cpu with x := v } : Cpu).setZN v).next i r s s)) ∧
    (∀ v : Byte,
      (i.mnemonic = .iny ∧ v.toNat = (s.y.toNat + 1) % 256 ∨ i.mnemonic = .dey ∧ v.toNat = (s.y.toNat + 255) % 256) →
      ∃ r : Row, HasRow i r ∧ Completes i s s ((({ s.cpu with y := v } : Cpu).setZN v).next i r s s))

/-- ASL, LSR, ROL, ROR (R211 to R214), on the accumulator and on memory: the result as a number, C the bit shifted out, Z and N; a
memory form writes the address it read, once, and leaves A alone. -/
def Obligations.ShiftsAndRotates : Prop :=
  ∀ (i : Instr) (s : State) (v : Byte) (out : Bool),
    let m := sourceOf i s
    let carry : Nat := if s.cpu.c then 1 else 0
    (i.mnemonic = .asl ∧ v.toNat = (2 * m.1.toNat) % 256 ∧ out = m.1.getLsbD 7 ∨
      i.mnemonic = .lsr ∧ v.toNat = m.1.toNat / 2 ∧ out = m.1.getLsbD 0 ∨
      i.mnemonic = .rol ∧ v.toNat = (2 * m.1.toNat) % 256 + carry ∧ out = m.1.getLsbD 7 ∨
      i.mnemonic = .ror ∧ v.toNat = m.1.toNat / 2 + 128 * carry ∧ out = m.1.getLsbD 0) →
    ∃ r : Row, HasRow i r ∧
      (i.mode = .accumulator →
        Completes i s s ((({ s.cpu with a := v, c := out } : Cpu).setZN v).next i r s s)) ∧
      (i.mode ≠ .accumulator →
        (let mid := busWrite (eaOf i s) v m.2
         Completes i s mid ((({ s.cpu with c := out } : Cpu).setZN v).next i r s mid)))

/-- JMP (R221), absolute to its operand word, indirect to the word its pointer reads give; JSR (R222), RTS (R223) and RTI (R225):
the bytes pushed and pulled, high byte first and low byte first, with the stack pointer wrapping in its page; RTI loads every flag
but B, which it clears, and U, which it sets. -/
def Obligations.JumpsCallsAndReturns : Prop :=
  (∀ (i : Instr) (s : State), i.mnemonic = .jmp → ∃ r : Row, HasRow i r ∧
    (i.mode = .absolute ∨ i.mode = .indirect) ∧
    (i.mode = .absolute → eaOf i s = operandWord i) ∧
    Completes i s (operandOf i s).2 { s.cpu with pc := eaOf i s, cost := r.cycles + s.dmaStall }) ∧
  (∀ (target : Word) (s : State), ∃ r : Row, HasRow (.jsrAbs target) r ∧
    Completes (.jsrAbs target) s
      (s.setRam ((s.ram.write (256 + s.sp.toNat) (hiByte (s.pc + 2))).write (256 + (s.sp - 1).toNat) (loByte (s.pc + 2))))
      { s.cpu with sp := s.sp - 2, pc := target, cost := r.cycles + s.dmaStall }) ∧
  (∀ s : State, ∃ r : Row, HasRow .rts r ∧
    Completes .rts s s
      { s.cpu with
        sp := s.sp + 2
        pc := word (s.ram.read (256 + (s.sp + 2).toNat)) (s.ram.read (256 + (s.sp + 1).toNat)) + 1
        cost := r.cycles + s.dmaStall }) ∧
  (∀ s : State, ∃ r : Row, HasRow .rti r ∧
    (let m := s.ram.read (256 + (s.sp + 1).toNat)
     Completes .rti s s
      { s.cpu with
        c := m.getLsbD 0, z := m.getLsbD 1, i := m.getLsbD 2, d := m.getLsbD 3
        b := false, u := true, v := m.getLsbD 6, n := m.getLsbD 7
        sp := s.sp + 3
        pc := word (s.ram.read (256 + (s.sp + 3).toNat)) (s.ram.read (256 + (s.sp + 2).toNat))
        cost := r.cycles + s.dmaStall }))

/-- BRK (R226). In halt mode it ends the run: `halted`, `PC` past the opcode, cost 0, nothing else. In interrupt mode it pushes
`pc0 + 2` and the status with B and U set, sets `I`, and takes the IRQ vector, for 7 cycles. -/
def Obligations.Break : Prop :=
  HasRow .brk ⟨0x00, .implied, 1, 7, false⟩ ∧
  (∀ s : State, s.params.brkMode = .halt →
    Completes .brk s (s.setHalted true) { s.cpu with pc := s.pc + 1, cost := 0 }) ∧
  (∀ s : State, s.params.brkMode = .interrupt →
    Completes .brk s
      (s.setRam (((s.ram.write (256 + s.sp.toNat) (hiByte (s.pc + 2))).write
        (256 + (s.sp - 1).toNat) (loByte (s.pc + 2))).write
        (256 + (s.sp - 2).toNat) (s.p ||| 0x30)))
      { s.cpu with
        sp := s.sp - 3, i := true, pc := word (s.memByte 0xFFFF) (s.memByte 0xFFFE), cost := 7 + s.dmaStall })

/-- The eight branches (R224, R228 to R235): the condition, the signed offset from the next instruction modulo 65536, the cycles
taken and not taken, and no flag, register or memory changed. -/
def Obligations.Branches : Prop :=
  ∀ (i : Instr) (s : State), i.mode = .relative →
    (∃ r : Row, HasRow i r ∧ r.cycles = 2) ∧
    i.mnemonic ∈ [.bcc, .bcs, .beq, .bne, .bmi, .bpl, .bvc, .bvs] ∧
    (let next := s.pc + 2
     let target : Word := BitVec.ofInt 16 (next.toNat + (operandByte i).toInt)
     Completes i s s
      (if branchTaken i.mnemonic s.cpu then
        { s.cpu with
          pc := target
          cost := 2 + 1 + (if next.toNat / 256 = target.toNat / 256 then 0 else 1) + s.dmaStall }
       else { s.cpu with pc := next, cost := 2 + s.dmaStall }))

/-- PHA, PHP, PLA, PLP (R251 to R254): the stack byte, the stack pointer wrapping in its page, the pushed copy with B and U set,
the pulled status with B clear and U set. -/
def Obligations.StackInstructions : Prop :=
  ∀ s : State,
    (∃ r : Row, HasRow .pha r ∧
      (let mid := s.setRam (s.ram.write (256 + s.sp.toNat) s.a)
       Completes .pha s mid (({ s.cpu with sp := s.sp - 1 } : Cpu).next .pha r s mid))) ∧
    (∃ r : Row, HasRow .php r ∧
      (let mid := s.setRam (s.ram.write (256 + s.sp.toNat) (s.p ||| 0x30))
       Completes .php s mid (({ s.cpu with sp := s.sp - 1 } : Cpu).next .php r s mid))) ∧
    (∃ r : Row, HasRow .pla r ∧
      (let m := s.ram.read (256 + (s.sp + 1).toNat)
       Completes .pla s s ((({ s.cpu with sp := s.sp + 1, a := m } : Cpu).setZN m).next .pla r s s))) ∧
    (∃ r : Row, HasRow .plp r ∧
      (let m := s.ram.read (256 + (s.sp + 1).toNat)
       Completes .plp s s
        (({ s.cpu with
            sp := s.sp + 1, c := m.getLsbD 0, z := m.getLsbD 1, i := m.getLsbD 2, d := m.getLsbD 3
            b := false, u := true, v := m.getLsbD 6, n := m.getLsbD 7 } : Cpu).next .plp r s s)))

/-- CLC, SEC, CLI, SEI, CLD, SED, CLV (R255 to R261) write their flag alone, and NOP (R227) nothing. -/
def Obligations.FlagInstructionsAndNop : Prop :=
  ∀ (i : Instr) (s : State) (after : Cpu),
    (i.mnemonic = .clc ∧ after = { s.cpu with c := false } ∨
      i.mnemonic = .sec ∧ after = { s.cpu with c := true } ∨
      i.mnemonic = .cli ∧ after = { s.cpu with i := false } ∨
      i.mnemonic = .sei ∧ after = { s.cpu with i := true } ∨
      i.mnemonic = .cld ∧ after = { s.cpu with d := false } ∨
      i.mnemonic = .sed ∧ after = { s.cpu with d := true } ∨
      i.mnemonic = .clv ∧ after = { s.cpu with v := false } ∨
      i.mnemonic = .nop ∧ after = s.cpu) →
    ∃ r : Row, HasRow i r ∧ Completes i s s (after.next i r s s)

/-! ## Operands -/

/-- The effective addresses of the modes without a pointer, as numbers (R137 to R142): zero-page indexing wraps in the page,
absolute indexing modulo 65536, and the page test compares the pages of the base and of the address. -/
def Obligations.DirectOperandAddresses : Prop :=
  ∀ (i : Instr) (s : State),
    (i.mode = .zeroPage → (eaOf i s).toNat = (operandByte i).toNat) ∧
    (i.mode = .zeroPageX → (eaOf i s).toNat = ((operandByte i).toNat + s.x.toNat) % 256) ∧
    (i.mode = .zeroPageY → (eaOf i s).toNat = ((operandByte i).toNat + s.y.toNat) % 256) ∧
    (i.mode = .absolute → (eaOf i s).toNat = (operandWord i).toNat) ∧
    (i.mode = .absoluteX → (eaOf i s).toNat = ((operandWord i).toNat + s.x.toNat) % 65536) ∧
    (i.mode = .absoluteY → (eaOf i s).toNat = ((operandWord i).toNat + s.y.toNat) % 65536) ∧
    (i.mode = .absoluteX ∨ i.mode = .absoluteY →
      ((operandOf i s).1.crossed = true ↔ (operandWord i).toNat / 256 ≠ (eaOf i s).toNat / 256)) ∧
    (i.mode = .zeroPage ∨ i.mode = .zeroPageX ∨ i.mode = .zeroPageY ∨ i.mode = .absolute →
      (operandOf i s).1.crossed = false) ∧
    (i.mode ∈ [.zeroPage, .zeroPageX, .zeroPageY, .absolute, .absoluteX, .absoluteY] → (operandOf i s).2 = s)

/-- The effective addresses of the pointer modes, as numbers (R143 to R145): the pointer's second byte wraps in the zero page; the
indirect jump's wraps in the pointer's own page, and its two reads go through the bus in order. -/
def Obligations.PointerOperandAddresses : Prop :=
  ∀ (i : Instr) (s : State),
    (i.mode = .indirectX →
      (let p := ((operandByte i).toNat + s.x.toNat) % 256
       (eaOf i s).toNat = 256 * (s.ram.read ((p + 1) % 256)).toNat + (s.ram.read p).toNat ∧
       (operandOf i s).1.crossed = false ∧ (operandOf i s).2 = s)) ∧
    (i.mode = .indirectY →
      (let p := (operandByte i).toNat
       let base := 256 * (s.ram.read ((p + 1) % 256)).toNat + (s.ram.read p).toNat
       (eaOf i s).toNat = (base + s.y.toNat) % 65536 ∧
       ((operandOf i s).1.crossed = true ↔ base / 256 ≠ (eaOf i s).toNat / 256) ∧ (operandOf i s).2 = s)) ∧
    (i.mode = .indirect →
      (let p := (operandWord i).toNat
       let lo := busRead (operandWord i) s
       let hi := busRead (BitVec.ofNat 16 (256 * (p / 256) + (p + 1) % 256)) lo.2
       (eaOf i s).toNat = 256 * hi.1.toNat + lo.1.toNat ∧ (operandOf i s).2 = hi.2))

/-! ## Frames over all instructions -/

/-- R22: an instruction leaves every general register alone that its column "written by" does not give it, the stack pointer
included. -/
def Obligations.RegistersWrittenOnlyAsListed : Prop :=
  ∀ (i : Instr) (s t : State) (r : Reg), exec i s = .next t → ¬ writesReg i s.params.brkMode r → t.reg r = s.reg r

/-- R27: an instruction leaves every flag alone that its row "written by" does not give it; bits B and U are written by PLP and RTI
alone (R28). -/
def Obligations.FlagsWrittenOnlyAsListed : Prop :=
  ∀ (i : Instr) (s t : State) (f : Flag), exec i s = .next t → ¬ writesFlag i s.params.brkMode f →
    getFlag t.p f = getFlag s.p f

/-- Every byte of memory outside the addresses an instruction stores to reads as before; a form that stores nothing leaves all of
memory alone; and a byte it stores in RAM is changed through every image of it (R84, R86, R91, R160, R180, R210). -/
def Obligations.MemoryWrittenOnlyWhereStored : Prop :=
  ∀ (i : Instr) (s t : State), exec i s = .next t →
    ∀ a : Word, (∀ e : Word, e ∈ storesTo i s → ¬ SameRamByte e a) → t.memByte a = s.memByte a

/-- The decimal flag never changes a result (R29): an instruction that neither writes `D` nor pushes the status does the same in
two states that differ in `D` alone, and leaves them differing in `D` alone. -/
def Obligations.DecimalFlagIsInert : Prop :=
  ∀ (i : Instr) (s t : State), i.mnemonic ∉ [.php, .brk, .plp, .rti, .cld, .sed] → exec i s = .next t →
    exec i (s.setP (s.p ^^^ 0x08)) = .next (t.setP (t.p ^^^ 0x08))

/-- R23: a general register is changed only by an instruction of R22 that the step executes, by interrupt entry (the stack pointer
only), and by reset; no device access, no DMA and no tick batch changes a register, the status or `PC`. -/
def Obligations.OnlyInstructionsChangeRegisters : Prop :=
  (∀ (s t : State) (r : Reg), step s = .next t → s.resetReq = false → t.reg r ≠ s.reg r →
    (∃ (i : Instr) (u : State), arbitrate s = none ∧ fetch (beginInstruction s) = .instr i u ∧
      writesReg i s.params.brkMode r) ∨
    (r = .sp ∧ arbitrate s ≠ none)) ∧
  (∀ (s : State) (a : Word) (v : Byte) (n : Nat),
    (busRead a s).2.cpu = s.cpu ∧ (busWrite a v s).cpu = s.cpu ∧ (oamDma v s).cpu = s.cpu ∧ (tickBatch n s).cpu = s.cpu)

/-! ## The bus -/

/-- R91: the four images of the work RAM are one memory: a read through any image gives the RAM byte of the address modulo 2048, the
byte last written through any image, other bytes are as before, and a read changes nothing. -/
def Obligations.RamIsMirrored : Prop :=
  ∀ (s : State) (a b : Word) (v : Byte), a.toNat < 0x2000 → b.toNat < 0x2000 →
    (busRead a s).2 = s ∧ (busRead a s).1 = s.ram.read (a.toNat % 0x800) ∧
    (a.toNat % 0x800 = b.toNat % 0x800 →
      (busRead a s).1 = (busRead b s).1 ∧ (busRead b (busWrite a v s)).1 = v) ∧
    (a.toNat % 0x800 ≠ b.toNat % 0x800 → (busRead b (busWrite a v s)).1 = (busRead b s).1) ∧
    (busWrite a v s).setRam s.ram = s

/-- R102, R103: program ROM is read by its index, one bank filling both halves of the window; a write to it is a diagnostic and
changes nothing. -/
def Obligations.ProgramRom : Prop :=
  ∀ (s : State) (a : Word) (v : Byte), 0x8000 ≤ a.toNat →
    (busRead a s).2 = s ∧
    (s.params.prgSize = .k32 → (busRead a s).1 = s.params.prg.read (a.toNat - 0x8000)) ∧
    (s.params.prgSize = .k16 → (busRead a s).1 = s.params.prg.read ((a.toNat - 0x8000) % 0x4000)) ∧
    (s.params.prgSize = .k16 → 0xC000 ≤ a.toNat → busRead a s = busRead (a - 0x4000) s) ∧
    (Config.prgBytes s.params.prgSize = 16384 ∨ Config.prgBytes s.params.prgSize = 32768) ∧
    busWrite a v s = { s with events := s.events ++ [.diag .illegalWrite a v] }

/-- R93, R95, R100, R101, R272, R278: the reads of write-only registers and of addresses in no window, the read of `0x4017`, the
write to the PPU status and the writes to addresses in no window: the value, the diagnostic where there is one, and no other
change of state. -/
def Obligations.RejectedAccesses : Prop :=
  ∀ (s : State) (a : Word) (v : Byte),
    (0x4000 ≤ a.toNat → a.toNat ≤ 0x4014 →
      busRead a s = (0x00, { s with events := s.events ++ [.diag .illegalRead a 0x00] })) ∧
    (a.toNat = 0x4017 → busRead a s = (0x00, s)) ∧
    (0x4018 ≤ a.toNat → a.toNat ≤ 0x7FFF →
      busRead a s = (0x00, { s with events := s.events ++ [.diag .unmappedAccess a 0x00] }) ∧
      busWrite a v s = { s with events := s.events ++ [.diag .unmappedAccess a v] }) ∧
    (0x2000 ≤ a.toNat → a.toNat ≤ 0x3FFF → a.toNat % 8 ∈ [0, 1, 3, 5, 6] →
      busRead a s =
        (0x00, { s with events := s.events ++ [.diag .illegalRead (BitVec.ofNat 16 (0x2000 + a.toNat % 8)) 0x00] })) ∧
    (0x2000 ≤ a.toNat → a.toNat ≤ 0x3FFF → a.toNat % 8 = 2 →
      busWrite a v s = { s with events := s.events ++ [.diag .illegalWrite 0x2002 v] })

/-- R92, R85, R99, R281: the PPU registers repeat every eight bytes through `0x3FFF`, for reads and writes alike; reads of RAM, of
program ROM, of the OAM data port, which gives the byte at the OAM address, and of `0x4017` have no side effect, and no other read
changes anything of the machine but the PPU at offsets 2 and 7, the frame IRQ at `0x4015`, the joypad at `0x4016`, and the events; a
read of `0x4016` gives the joypad's next byte, whatever that is (log 2), and a write to it is one call of the joypad and nothing
else. -/
def Obligations.ReadSideEffects : Prop :=
  (∀ (s : State) (a b : Word) (v : Byte), 0x2000 ≤ a.toNat → a.toNat ≤ 0x3FFF → 0x2000 ≤ b.toNat → b.toNat ≤ 0x3FFF →
    a.toNat % 8 = b.toNat % 8 → busRead a s = busRead b s ∧ busWrite a v s = busWrite b v s) ∧
  (∀ (s : State) (a : Word), 0x2000 ≤ a.toNat → a.toNat ≤ 0x3FFF → a.toNat % 8 = 4 →
    (busRead a s).1 = s.ppu.oam.read s.ppu.oamAddr.toNat) ∧
  (∀ (s : State) (a : Word),
    (HoldsByte a ∨ a.toNat = 0x4017 ∨ (0x2000 ≤ a.toNat ∧ a.toNat ≤ 0x3FFF ∧ a.toNat % 8 = 4) → (busRead a s).2 = s) ∧
    (¬ (0x2000 ≤ a.toNat ∧ a.toNat ≤ 0x3FFF ∧ a.toNat % 8 ∈ [2, 7]) → (busRead a s).2.ppu = s.ppu) ∧
    (a.toNat ≠ 0x4015 → (busRead a s).2.apu = s.apu) ∧
    (busRead a s).2.apu = { s.apu with fc := { s.apu.fc with frameIrq := (busRead a s).2.apu.fc.frameIrq } } ∧
    (a.toNat = 0x4015 → (busRead a s).2.apu.fc.frameIrq = false) ∧
    (busRead a s).2.joypadReads = (if a.toNat = 0x4016 then s.joypadReads + 1 else s.joypadReads) ∧
    (busRead a s).2.ppu.nmiPending = s.ppu.nmiPending ∧
    (let t := (busRead a s).2
     t = { s with ppu := t.ppu, apu := t.apu, joypadReads := t.joypadReads, events := t.events })) ∧
  (∀ (s : State) (v : Byte),
    busRead 0x4016 s =
      (Config.joypadByte s.joypadReads,
        { s with joypadReads := s.joypadReads + 1, events := s.events ++ [.joypadRead s.joypadReads] }) ∧
    busWrite 0x4016 v s = { s with events := s.events ++ [.joypadWrite v] })

/-- R115, R116, R117: a write to `0x4014` makes 256 bus reads of the page in order, each with its side effects and each followed by
the OAM data write of the byte read; the OAM address ends where it was; the stall is 513 or 514 by the parity of `cyc`; and nothing
else of the machine changes but what the reads touch. From a page of RAM or program ROM, where a source byte is a byte of memory,
byte `k` lands `k` places on from the OAM address, wrapping, and nothing but the OAM and the stall changes. -/
def Obligations.OamDmaCopiesThePage : Prop :=
  ∀ (s : State) (page : Byte),
    let t := busWrite 0x4014 page s
    (∃ after : Nat → State, after 0 = s ∧
      (∀ k : Nat, k < 256 →
        (let r := busRead (word page (BitVec.ofNat 8 k)) (after k)
         after (k + 1) = busWrite 0x2004 r.1 r.2)) ∧
      t = (after 256).setDmaStall (if s.cyc % 2 = 0 then 513 else 514)) ∧
    t.ppu.oamAddr = s.ppu.oamAddr ∧
    t = { s with
      dmaStall := if s.cyc % 2 = 0 then 513 else 514
      ppu := t.ppu, apu := t.apu, joypadReads := t.joypadReads, events := t.events } ∧
    (HoldsByte (word page 0x00) →
      (∀ k : Nat, k < 256 →
        t.ppu.oam.read ((s.ppu.oamAddr.toNat + k) % 256) = s.memByte (BitVec.ofNat 16 (256 * page.toNat + k))) ∧
      t.ppu = { s.ppu with oam := t.ppu.oam } ∧
      (t.setPpu s.ppu).setDmaStall s.dmaStall = s)

/-! ## The PPU -/

/-- R271, R276: the control write stores all bits and raises the NMI request exactly where it turns NMI generation on during vblank;
the status read gives the flags and five zero bits, then clears vblank and the write toggle, and cancels no request. -/
def Obligations.ControlWriteAndStatusRead : Prop :=
  ∀ (s : State) (a : Word) (v : Byte), 0x2000 ≤ a.toNat → a.toNat ≤ 0x3FFF →
    (a.toNat % 8 = 0 →
      busWrite a v s =
        { s with
          ppu :=
            { s.ppu with
              ctrl := v
              nmiPending :=
                s.ppu.nmiPending || (!s.ppu.ctrl.getLsbD 7 && v.getLsbD 7 && s.ppu.vblank) } }) ∧
    (a.toNat % 8 = 2 →
      (busRead a s).2 = { s with ppu := { s.ppu with vblank := false, w := false } } ∧
      (busRead a s).1.toNat =
        (if s.ppu.vblank then 128 else 0) + (if s.ppu.sprite0Hit then 64 else 0) + (if s.ppu.spriteOverflow then 32 else 0))

/-- R279, R280, R282, R283: the OAM address and data ports, and the scroll and address registers under their one toggle: the first
write of a pair takes scroll X or the high six address bits, the second scroll Y or the low eight. -/
def Obligations.PortAndToggleWrites : Prop :=
  ∀ (s : State) (a : Word) (v : Byte), 0x2000 ≤ a.toNat → a.toNat ≤ 0x3FFF →
    let u := (busWrite a v s).ppu
    (busWrite a v s).setPpu s.ppu = s.setEvents (busWrite a v s).events ∧
    (a.toNat % 8 = 1 → u = { s.ppu with mask := v }) ∧
    (a.toNat % 8 = 3 → u = { s.ppu with oamAddr := v }) ∧
    (a.toNat % 8 = 4 →
      u = { s.ppu with oam := u.oam, oamAddr := s.ppu.oamAddr + 1 } ∧
      ∀ k : Nat, u.oam.read k = if k = s.ppu.oamAddr.toNat then v else s.ppu.oam.read k) ∧
    (a.toNat % 8 = 5 → s.ppu.w = false → u = { s.ppu with scrollX := v, w := true }) ∧
    (a.toNat % 8 = 5 → s.ppu.w = true → u = { s.ppu with scrollY := v, w := false }) ∧
    (a.toNat % 8 = 6 → s.ppu.w = false →
      u = { s.ppu with vramAddr := u.vramAddr, w := true } ∧
      u.vramAddr.toNat = 256 * (v.toNat % 64) + s.ppu.vramAddr.toNat % 256) ∧
    (a.toNat % 8 = 6 → s.ppu.w = true →
      u = { s.ppu with vramAddr := u.vramAddr, w := false } ∧
      u.vramAddr.toNat = 256 * (s.ppu.vramAddr.toNat / 256) + v.toNat)

/-- The data port (R287 to R292): the access goes to character ROM, nametable RAM or palette by the address; reads below `0x3F00`
are buffered by one, palette reads are not; a write to character ROM is a diagnostic; every access moves the address by 1 or 32
modulo `0x4000`. -/
def Obligations.DataPort : Prop :=
  ∀ (s : State) (v : Byte),
    let addr := s.ppu.vramAddr.toNat
    let moved : BitVec 14 := BitVec.ofNat 14 (addr + (if s.ppu.ctrl.getLsbD 2 then 32 else 1))
    let byte := if addr ≤ 0x1FFF then s.params.chr.read addr
      else if addr ≤ 0x3EFF then s.ppu.vram.read (mirrorVram s.params.mirroring s.ppu.vramAddr)
      else s.ppu.palette.read (palIndex s.ppu.vramAddr)
    (addr ≤ 0x3EFF →
      busRead 0x2007 s = (s.ppu.readBuf, { s with ppu := { s.ppu with readBuf := byte, vramAddr := moved } })) ∧
    (0x3F00 ≤ addr → busRead 0x2007 s = (byte, { s with ppu := { s.ppu with vramAddr := moved } })) ∧
    (addr ≤ 0x1FFF →
      busWrite 0x2007 v s =
        { s with
          ppu := { s.ppu with vramAddr := moved }
          events := s.events ++ [.diag .illegalWrite (BitVec.ofNat 16 addr) v] }) ∧
    (0x2000 ≤ addr → addr ≤ 0x3EFF →
      (let vram := (busWrite 0x2007 v s).ppu.vram
       busWrite 0x2007 v s = { s with ppu := { s.ppu with vram := vram, vramAddr := moved } } ∧
       ∀ k : Nat, vram.read k = if k = mirrorVram s.params.mirroring s.ppu.vramAddr then v else s.ppu.vram.read k)) ∧
    (0x3F00 ≤ addr →
      (let palette := (busWrite 0x2007 v s).ppu.palette
       busWrite 0x2007 v s = { s with ppu := { s.ppu with palette := palette, vramAddr := moved } } ∧
       ∀ k : Nat, palette.read k = if k = palIndex s.ppu.vramAddr then v else s.ppu.palette.read k))

/-- The round trip of R293, as a run of bus accesses: set the address, write, set it again, read twice. The second read gives the
byte written; where the address after `A` is the first palette address (`A = 0x3EFF`), it is a palette read (R291) and gives the
palette's byte, and the byte written stands in the buffer. That last case is the model's choice (DEDUCED, unsafe, log 16): it
follows R290 and R291, where R293 says that the second read gives the byte written for every `A`. -/
def Obligations.NametableRoundTrip : Prop :=
  ∀ (s : State) (A : BitVec 14) (v : Byte), s.ppu.w = false → s.ppu.ctrl.getLsbD 2 = false →
    0x2000 ≤ A.toNat → A.toNat ≤ 0x3EFF →
    let hi : Byte := BitVec.ofNat 8 (A.toNat / 256)
    let lo : Byte := BitVec.ofNat 8 (A.toNat % 256)
    let s1 := busWrite 0x2007 v (busWrite 0x2006 lo (busWrite 0x2006 hi s))
    let s2 := busWrite 0x2006 lo (busWrite 0x2006 hi s1)
    let r1 := busRead 0x2007 s2
    let r2 := busRead 0x2007 r1.2
    s1.ppu.vramAddr = A + 1 ∧
    r1.1 = s.ppu.readBuf ∧ r1.2.ppu.readBuf = v ∧ r1.2.ppu.vramAddr = A + 1 ∧
    (A.toNat ≠ 0x3EFF → r2.1 = v ∧ r2.2.ppu.readBuf = s1.ppu.vram.read (mirrorVram s.params.mirroring (A + 1))) ∧
    (A.toNat = 0x3EFF → r2.1 = s.ppu.palette.read 0 ∧ r2.2.ppu.readBuf = v)

/-- R284, R285: the nametable mirroring in its closed form and within the RAM, which banks the two modes fold together, and the
palette index with its four aliases. -/
def Obligations.NametableAndPaletteMirroring : Prop :=
  (∀ a : BitVec 14, 0x2000 ≤ a.toNat → a.toNat ≤ 0x3EFF →
    (let v := (a.toNat - 0x2000) % 0x1000
     mirrorVram .vertical a = v % 0x800 ∧
     mirrorVram .horizontal a = (if 0x800 ≤ v then 0x400 else 0) + v % 0x400 ∧
     ∀ m : Mirroring, mirrorVram m a < 0x800 ∧ mirrorVram m a % 0x400 = a.toNat % 0x400)) ∧
  (∀ a : BitVec 14, 0x3F00 ≤ a.toNat →
    (let k := a.toNat % 0x20
     palIndex a = if k ∈ [0x10, 0x14, 0x18, 0x1C] then k - 0x10 else k))

/-- R311, R313, R314, R316: from the first dot of a frame, the position of every dot, the one dot at which vblank (and the NMI
request, where enabled) is set, and the last, at which the frame wraps: after 89342 dots the timer is where it was, vblank and the
request are clear, and the frame is reported complete. -/
def Obligations.FrameOfDots : Prop :=
  ∀ u : Ppu, u.scanline = 0 → u.cycle = 0 →
    (∀ n : Nat, n < 82181 → Ppu.dots n u = { u with scanline := n / 341, cycle := n % 341 }) ∧
    (∀ n : Nat, 82181 ≤ n → n < 89342 →
      Ppu.dots n u =
        { u with
          scanline := n / 341, cycle := n % 341, vblank := true, sprite0Hit := false
          nmiPending := u.nmiPending || u.ctrl.getLsbD 7 }) ∧
    Ppu.dots 89342 u =
      { u with
        scanline := 0, cycle := 0, vblank := false, sprite0Hit := false, nmiPending := false, frameComplete := true }

/-- R120, R315, R321, R322: a tick batch that enters scanline 241 with NMI generation on and no request pending ends with one call
of the frame-ready notification; any other batch of a step makes none; the batch reports the frame complete exactly where it reaches
the end of the frame; and it advances the PPU by three dots and the APU by one tick for each cycle, and changes nothing else. -/
def Obligations.FrameReadyAtVblank : Prop :=
  ∀ (s : State) (n : Nat), s.ppu.TimerOk → n ≤ 521 →
    let start := s.ppu.scanline * 341 + s.ppu.cycle
    let t := tickBatch n s
    (start < 82181 → 82181 ≤ start + 3 * n → s.ppu.ctrl.getLsbD 7 = true → s.ppu.nmiPending = false →
      t.events = s.events ++ [.frameReady] ∧ t.ppu.nmiPending = true) ∧
    (¬ (start < 82181 ∧ 82181 ≤ start + 3 * n ∧ s.ppu.ctrl.getLsbD 7 = true ∧ s.ppu.nmiPending = false) →
      t.events = s.events) ∧
    (t.ppu.frameComplete = true ↔ 89342 ≤ start + 3 * n) ∧
    t = { s with
      nmiPrev := s.ppu.nmiPending, ppu := Ppu.dots (3 * n) { s.ppu with frameComplete := false }, apu := Apu.ticks n s.apu
      cyc := s.cyc + n, events := t.events }

/-! ## The APU -/

/-- R331, R333, R335: the sequencer over any number of ticks from the start of a sequence: which step is next, the divider, and the
frame IRQ, which the last step of the 4-step mode raises unless inhibited and the 5-step mode never. -/
def Obligations.FrameCounterSequence : Prop :=
  ∀ (u : Apu) (n : Nat), u.fc.step = 0 → u.fc.divider = 0 →
    (Apu.ticks n u).fc =
      { u.fc with
        step := n / 7457 % (if u.fc.mode then 5 else 4)
        divider := n % 7457
        frameIrq := u.fc.frameIrq || (!u.fc.mode && !u.fc.irqInhibit && decide (29828 ≤ n)) }

/-- R331, R332, R337, R386: what one firing step of the frame counter clocks, by the table of R331 (a quarter frame at every step,
a half frame at steps 1 and 3, and 4 of the 5-step mode); a quarter frame clocks a pulse channel's envelope, a half frame its
length counter, halted by its loop flag, and its sweep unit, and the triangle's length counter, halted by its control flag; one APU
tick: the triangle timer on every tick, the pulse timers on every other, then the frame counter; and the write to `0x4017`: mode,
inhibit, restart, the IRQ cleared by inhibit, both clocks at once in 5-step mode. -/
def Obligations.FrameCounterClocks : Prop :=
  (∀ c : Pulse, c.quarterFrame = { c with env := c.env.clock }) ∧
  (∀ (id : PulseId) (c : Pulse),
    c.halfFrame id =
      { c with
        length := lengthClock c.env.loop c.length
        period := (c.sweepClock id).period, sweep := (c.sweepClock id).sweep }) ∧
  (∀ t : Triangle, t.halfFrame = { t with length := lengthClock t.control t.length }) ∧
  (∀ u : Apu, u.fc.InRange → u.fc.divider = 7456 →
    (let half : Bool := u.fc.step ∈ [1, 3] || (u.fc.mode && u.fc.step == 4)
     let t := u.frameCounterTick
     t.pulse1 = (if half then u.pulse1.quarterFrame.halfFrame .one else u.pulse1.quarterFrame) ∧
     t.pulse2 = (if half then u.pulse2.quarterFrame.halfFrame .two else u.pulse2.quarterFrame) ∧
     t.tri = (if half then u.tri.linearClock.halfFrame else u.tri.linearClock) ∧
     t.apuOdd = u.apuOdd ∧ t.fc.divider = 0)) ∧
  (∀ u : Apu, u.fc.divider ≠ 7456 →
    u.frameCounterTick = { u with fc := { u.fc with divider := u.fc.divider + 1 } }) ∧
  (∀ u : Apu,
    u.tick =
      ({ u with
          pulse1 := if u.apuOdd then u.pulse1.timerClock else u.pulse1
          pulse2 := if u.apuOdd then u.pulse2.timerClock else u.pulse2
          tri := u.tri.timerClock, apuOdd := !u.apuOdd } : Apu).frameCounterTick) ∧
  (∀ (s : State) (v : Byte),
    (let t := (busWrite 0x4017 v s).apu
     t.fc =
        { mode := v.getLsbD 7, irqInhibit := v.getLsbD 6, step := 0, divider := 0
          frameIrq := s.apu.fc.frameIrq && !v.getLsbD 6 } ∧
     t.pulse1 = (if v.getLsbD 7 then s.apu.pulse1.quarterFrame.halfFrame .one else s.apu.pulse1) ∧
     t.pulse2 = (if v.getLsbD 7 then s.apu.pulse2.quarterFrame.halfFrame .two else s.apu.pulse2) ∧
     t.tri = (if v.getLsbD 7 then s.apu.tri.linearClock.halfFrame else s.apu.tri) ∧
     t.apuOdd = s.apu.apuOdd))

/-- R342, R343, R387, R388: a half-frame clock takes one from a running length counter and stops at 0; disabling a channel forces
its counter to 0 at once, enabling restores nothing; the status read reports the three counters and the frame IRQ, and clears the
IRQ. -/
def Obligations.LengthCountersAndStatus : Prop :=
  (∀ (halt : Bool) (c : Byte),
    (lengthClock halt c).toNat = (if halt then c.toNat else c.toNat - 1)) ∧
  (∀ (s : State) (v : Byte),
    (let t := (busWrite 0x4015 v s).apu
     t.pulse1 = { s.apu.pulse1 with enabled := v.getLsbD 0, length := if v.getLsbD 0 then s.apu.pulse1.length else 0 } ∧
     t.pulse2 = { s.apu.pulse2 with enabled := v.getLsbD 1, length := if v.getLsbD 1 then s.apu.pulse2.length else 0 } ∧
     t.tri = { s.apu.tri with enabled := v.getLsbD 2, length := if v.getLsbD 2 then s.apu.tri.length else 0 } ∧
     t.fc = s.apu.fc ∧ t.apuOdd = s.apu.apuOdd)) ∧
  (∀ s : State,
    (busRead 0x4015 s).1.toNat =
      (if s.apu.pulse1.length = 0 then 0 else 1) + (if s.apu.pulse2.length = 0 then 0 else 2) +
      (if s.apu.tri.length = 0 then 0 else 4) + (if s.apu.fc.frameIrq then 64 else 0) ∧
    (busRead 0x4015 s).2 = { s with apu := { s.apu with fc := { s.apu.fc with frameIrq := false } } })

/-- R341, R370 to R373, R380 to R382, R389: the writes to the channel registers, field by field, through the bus; a length load is
ignored while the channel is disabled; the registers of absent channels ignore writes. -/
def Obligations.ChannelRegisterWrites : Prop :=
  ∀ (s : State) (v : Byte),
    let load (enabled : Bool) (c : Byte) : Byte :=
      if enabled then BitVec.ofNat 8 (lengthTableOfR340.getD (v.toNat / 8) 0) else c
    let high (p : BitVec 11) : BitVec 11 := BitVec.ofNat 11 (256 * (v.toNat % 8) + p.toNat % 256)
    let low (p : BitVec 11) : BitVec 11 := BitVec.ofNat 11 (256 * (p.toNat / 256) + v.toNat)
    let reg0 (p : Pulse) : Pulse :=
      { p with
        duty := BitVec.ofNat 2 (v.toNat / 64)
        env := { p.env with loop := v.getLsbD 5, constant := v.getLsbD 4, volume := BitVec.ofNat 4 (v.toNat % 16) } }
    let reg1 (p : Pulse) : Pulse :=
      { p with
        sweep :=
          { p.sweep with
            enabled := v.getLsbD 7, period := BitVec.ofNat 3 (v.toNat / 16 % 8), negate := v.getLsbD 3
            shift := BitVec.ofNat 3 (v.toNat % 8), reload := true } }
    let reg2 (p : Pulse) : Pulse := { p with period := low p.period }
    let reg3 (p : Pulse) : Pulse :=
      { p with
        period := high p.period, length := load p.enabled p.length, env := { p.env with start := true }, seqPos := 0 }
    let u := s.apu
    busWrite 0x4000 v s = s.setApu { u with pulse1 := reg0 u.pulse1 } ∧
    busWrite 0x4001 v s = s.setApu { u with pulse1 := reg1 u.pulse1 } ∧
    busWrite 0x4002 v s = s.setApu { u with pulse1 := reg2 u.pulse1 } ∧
    busWrite 0x4003 v s = s.setApu { u with pulse1 := reg3 u.pulse1 } ∧
    busWrite 0x4004 v s = s.setApu { u with pulse2 := reg0 u.pulse2 } ∧
    busWrite 0x4005 v s = s.setApu { u with pulse2 := reg1 u.pulse2 } ∧
    busWrite 0x4006 v s = s.setApu { u with pulse2 := reg2 u.pulse2 } ∧
    busWrite 0x4007 v s = s.setApu { u with pulse2 := reg3 u.pulse2 } ∧
    busWrite 0x4008 v s = s.setApu
      { u with tri := { u.tri with control := v.getLsbD 7, linearReloadValue := BitVec.ofNat 7 (v.toNat % 128) } } ∧
    busWrite 0x400A v s = s.setApu { u with tri := { u.tri with period := low u.tri.period } } ∧
    busWrite 0x400B v s = s.setApu
      { u with
        tri :=
          { u.tri with
            period := high u.tri.period, length := load u.tri.enabled u.tri.length, linearReload := true } } ∧
    busWrite 0x4009 v s = s ∧
    (∀ a : Word, 0x400C ≤ a.toNat → a.toNat ≤ 0x4013 → busWrite a v s = s)

/-- R346, R348: a started envelope is at level 15 after one clock; from a full divider, each `V + 1` further clocks take one from a
non-zero level, and a level of 0 stays there, or returns to 15 in loop mode; the reported volume is the constant or the level. -/
def Obligations.EnvelopeDecay : Prop :=
  ∀ e : Envelope,
    (e.start = true → e.clock = { e with start := false, decay := 15, divider := e.volume }) ∧
    (e.start = false → e.divider = e.volume →
      Envelope.clock^[e.volume.toNat + 1] e =
        { e with decay := if e.decay = 0 then (if e.loop then 15 else 0) else e.decay - 1 }) ∧
    e.level = (if e.constant then e.volume else e.decay)

/-- R351 to R353: the sweep target as an integer, 0 to `0xFFE`; the half-frame update sets the period to the target exactly where
the divider is 0, the unit is enabled with a shift, and the target is not muted, and the period is then the target itself (nothing
wraps); the divider reloads or counts down. For a negating pulse 2 whose change is 0 this keeps the period at
8 or above, where R354 (c) says that it shrinks until it is below 8: the model's choice (DEDUCED, log 18). -/
def Obligations.SweepUnit : Prop :=
  ∀ (id : PulseId) (c : Pulse),
    let change : Int := (c.period.toNat / 2 ^ c.sweep.shift.toNat : Nat)
    let target : Int :=
      if c.sweep.negate then max 0 ((c.period.toNat : Int) - change - (match id with | .one => 1 | .two => 0))
      else c.period.toNat + change
    let fires : Prop :=
      c.sweep.divider = 0 ∧ c.sweep.enabled = true ∧ c.sweep.shift ≠ 0 ∧ 8 ≤ c.period.toNat ∧ target ≤ 0x7FF
    let t := c.sweepClock id
    c.sweepTarget id = target ∧ 0 ≤ target ∧ target ≤ 0xFFE ∧
    (fires → (t.period.toNat : Int) = target) ∧ (¬ fires → t.period = c.period) ∧
    t.sweep =
      (if c.sweep.divider = 0 ∨ c.sweep.reload = true then
        { c.sweep with divider := c.sweep.period, reload := false }
       else { c.sweep with divider := c.sweep.divider - 1 }) ∧
    t = { c with period := t.period, sweep := t.sweep }

/-- R374, R376: from a full timer, `t + 1` pulse timer clocks move the sequence position by one and fill the timer again; the
output is the envelope's volume exactly where the duty bit is set, the length counter runs and the period is at least 8, and 0
otherwise; the duty patterns are those of R375. -/
def Obligations.PulseChannel : Prop :=
  (∀ c : Pulse, c.timer = c.period →
    Pulse.timerClock^[c.period.toNat + 1] c = { c with seqPos := c.seqPos + 1 }) ∧
  (∀ c : Pulse,
    let high : Bool := match c.duty.toNat with
      | 0 => decide (c.seqPos.toNat ∈ [1])
      | 1 => decide (c.seqPos.toNat ∈ [1, 2])
      | 2 => decide (c.seqPos.toNat ∈ [1, 2, 3, 4])
      | _ => decide (c.seqPos.toNat ∉ [1, 2])
    (high = true → c.length ≠ 0 → 8 ≤ c.period.toNat → c.output = c.env.level.toNat) ∧
    (high = false ∨ c.length = 0 ∨ c.period.toNat ≤ 7 → c.output = 0) ∧ c.output ≤ 15)

/-- R383, R384: the triangle's timer moves its position every `t + 1` ticks while both counters run, and holds it otherwise; its
output over one cycle of 32 positions rises from 0 to 15 and falls back, and is 0 where either counter is 0; the linear counter
reloads or counts down, and its reload flag is cleared where control is clear. -/
def Obligations.TriangleChannel : Prop :=
  (∀ t : Triangle, t.timer = t.period →
    Triangle.timerClock^[t.period.toNat + 1] t =
      { t with seqPos := if t.length ≠ 0 ∧ t.linear ≠ 0 then t.seqPos + 1 else t.seqPos }) ∧
  (∀ t : Triangle, t.length ≠ 0 → t.linear ≠ 0 →
    (List.range 32).map (fun k => ({ t with seqPos := BitVec.ofNat 5 k } : Triangle).output) =
      [0, 1, 2, 3, 4, 5, 6, 7, 8, 9, 10, 11, 12, 13, 14, 15, 15, 14, 13, 12, 11, 10, 9, 8, 7, 6, 5, 4, 3, 2, 1, 0]) ∧
  (∀ t : Triangle, t.length = 0 ∨ t.linear = 0 → t.output = 0) ∧
  (∀ t : Triangle,
    t.linearClock =
      { t with
        linear :=
          if t.linearReload then t.linearReloadValue else if t.linear = 0 then 0 else t.linear - 1
        linearReload := t.linearReload && t.control })

end Statements
end

