-- ==== Sys2Proof/Laws/Bits.lean ====
section
/-! SUPPORT. The bit-field and extension helpers, as numbers. -/

namespace Sys2Proof.Machine

@[simp] theorem zext16_toNat (b : Byte) : (zext16 b).toNat = b.toNat := by
  simp [zext16, Nat.mod_eq_of_lt (Nat.lt_of_lt_of_le b.isLt (show 2 ^ 8 ≤ 65536 by decide))]

theorem word_toNat (hi lo : Byte) : (word hi lo).toNat = 256 * hi.toNat + lo.toNat := by
  unfold word
  rw [BitVec.toNat_append, Nat.shiftLeft_eq, Nat.mul_comm]
  exact (Nat.two_pow_add_eq_or_of_lt lo.isLt hi.toNat).symm

theorem hiByte_toNat (w : Word) : (hiByte w).toNat = w.toNat / 256 := by
  unfold hiByte
  rw [BitVec.extractLsb'_toNat, Nat.shiftRight_eq_div_pow]
  have := w.isLt
  omega

theorem loByte_toNat (w : Word) : (loByte w).toNat = w.toNat % 256 := by
  unfold loByte
  rw [BitVec.extractLsb'_toNat, Nat.shiftRight_zero]

@[simp] theorem hiByte_word (hi lo : Byte) : hiByte (word hi lo) = hi := by
  apply BitVec.eq_of_toNat_eq
  rw [hiByte_toNat, word_toNat]
  have := lo.isLt
  omega

@[simp] theorem loByte_word (hi lo : Byte) : loByte (word hi lo) = lo := by
  apply BitVec.eq_of_toNat_eq
  rw [loByte_toNat, word_toNat]
  have := lo.isLt
  omega

/-- A word is made of its two bytes. -/
@[simp] theorem word_of_bytes (w : Word) : word (hiByte w) (loByte w) = w := by
  apply BitVec.eq_of_toNat_eq
  rw [word_toNat, hiByte_toNat, loByte_toNat]
  omega

/-! Moving a stack pointer in two goes, in the spelling that `simp` leaves. -/

theorem sub_one_sub_one (b : Byte) : b - 1#8 - 1#8 = b - 2#8 := by rw [BitVec.sub_sub]; rfl
theorem sub_two_sub_one (b : Byte) : b - 2#8 - 1#8 = b - 3#8 := by rw [BitVec.sub_sub]; rfl
theorem add_one_add_one (b : Byte) : b + 1#8 + 1#8 = b + 2#8 := by rw [BitVec.add_assoc]; rfl
theorem add_one_add_two (b : Byte) : b + 1#8 + 2#8 = b + 3#8 := by rw [BitVec.add_assoc]; rfl

end Sys2Proof.Machine
end

