-- ==== Sys2Proof/Laws/Memory.lean ====
section
/-! SUPPORT. The laws of byte memories: read after write, and the canonical form and the size are kept. -/

namespace Sys2Proof.Machine.Memory

theorem read_cons (c : Host.Cell) (m : Memory) (k : Nat) :
    read (c :: m) k = if c.1 = k then c.2 else if k < c.1 then Config.unlistedByte else read m k := rfl

/-- Dropping the entries up to `k` changes no read above `k`. -/
theorem read_dropWhile_above (m : Memory) (k j : Nat) (h : k < j) :
    read (m.dropWhile (fun d => d.1 ≤ k)) j = read m j := by
  induction m with
  | nil => rfl
  | cons c m ih =>
    by_cases hc : c.1 ≤ k
    · rw [List.dropWhile_cons_of_pos (by simpa using hc), ih, read_cons]
      simp [show c.1 ≠ j by omega, show ¬ j < c.1 by omega]
    · rw [List.dropWhile_cons_of_neg (by simpa using hc)]

/-- After the entries up to `k` are dropped, an index up to `k` reads as unlisted. -/
theorem read_dropWhile_upTo (m : Memory) (k j : Nat) (h : j ≤ k) :
    read (m.dropWhile (fun d => d.1 ≤ k)) j = Config.unlistedByte := by
  induction m with
  | nil => rfl
  | cons c m ih =>
    by_cases hc : c.1 ≤ k
    · rw [List.dropWhile_cons_of_pos (by simpa using hc), ih]
    · rw [List.dropWhile_cons_of_neg (by simpa using hc), read_cons]
      simp [show c.1 ≠ j by omega, show j < c.1 by omega]

/-- What an entry in front of a memory reads as. -/
theorem read_entry_append (m : Memory) (k j : Nat) (v : Byte) (hk : read m k = Config.unlistedByte)
    (hlt : j < k → read m j = Config.unlistedByte) :
    read (entry k v ++ m) j = if j = k then v else read m j := by
  unfold entry
  split
  · by_cases h : j = k <;> simp_all
  · rw [List.singleton_append, read_cons]
    rcases Nat.lt_trichotomy j k with h | h | h
    · simp [hlt h, show k ≠ j by omega, h, show j ≠ k by omega]
    · simp [h]
    · simp [show k ≠ j by omega, show ¬ j < k by omega, show j ≠ k by omega]

/-- Reading any index after a write: the written byte at the written index, the old byte elsewhere. -/
theorem read_write (m : Memory) (k j : Nat) (v : Byte) :
    read (write m k v) j = if j = k then v else read m j := by
  induction m with
  | nil => simpa [write] using read_entry_append [] k j v rfl (fun _ => rfl)
  | cons c m ih =>
    simp only [write]
    split
    · next h =>
      exact read_entry_append _ k j v (by simp [read_cons, show c.1 ≠ k by omega, h])
        (fun hj => by simp [read_cons, show c.1 ≠ j by omega, show j < c.1 by omega])
    · next h =>
      split
      · next hc =>
        rw [read_entry_append _ k j v (read_dropWhile_upTo m k k (Nat.le_refl k))
          (fun hj => read_dropWhile_upTo m k j (by omega))]
        by_cases hj : j = k
        · simp [hj]
        · simp only [hj, if_false, read_cons, hc, show k ≠ j by omega]
          rcases Nat.lt_or_ge j k with h' | h'
          · simp [h', read_dropWhile_upTo m k j (by omega)]
          · simp [show ¬ j < k by omega, read_dropWhile_above m k j (by omega)]
      · next hc =>
        rw [read_cons, ih, read_cons]
        by_cases hj : j = k
        · simp [hj, show ¬ k < c.1 by omega, hc]
        · simp [hj]

@[simp] theorem read_write_same (m : Memory) (k : Nat) (v : Byte) : read (write m k v) k = v := by
  simp [read_write]

theorem read_write_other (m : Memory) (k j : Nat) (v : Byte) (h : j ≠ k) : read (write m k v) j = read m j := by
  simp [read_write, h]

/-- The entries of a written memory are the new one and old ones. -/
theorem mem_write (m : Memory) (k : Nat) (v : Byte) (c : Host.Cell) (h : c ∈ write m k v) :
    (c = (k, v) ∧ v ≠ Config.unlistedByte) ∨ c ∈ m := by
  have hentry : c ∈ entry k v → c = (k, v) ∧ v ≠ Config.unlistedByte := by
    unfold entry; split <;> simp_all
  induction m with
  | nil => exact .inl (hentry h)
  | cons d m ih =>
    simp only [write] at h
    split at h
    · exact (List.mem_append.1 h).imp hentry id
    · split at h
      · exact (List.mem_append.1 h).imp hentry
          (fun h => List.mem_cons_of_mem _ ((List.dropWhile_sublist _).subset h))
      · rcases List.mem_cons.1 h with h | h
        · exact .inr (by simp [h])
        · exact (ih h).imp id (List.mem_cons_of_mem _)

/-- A write below the size keeps every index below the size. -/
theorem within_write (m : Memory) (k : Nat) (v : Byte) (size : Nat) (h : m.within size) (hk : k < size) :
    (write m k v).within size := by
  intro c hc
  rcases mem_write m k v c hc with ⟨rfl, -⟩ | h'
  · exact hk
  · exact h c h'

/-- An entry put in front of a canonical memory with larger indexes. -/
theorem wf_entry_append (m : Memory) (k : Nat) (v : Byte) (h : m.wf) (hk : ∀ c ∈ m, k < c.1) : (entry k v ++ m).wf := by
  unfold entry
  split
  · simpa using h
  · next hv =>
    refine ⟨?_, ?_⟩
    · simpa using ⟨fun a b hab => hk (a, b) hab, h.1⟩
    · intro c hc
      rcases List.mem_cons.1 hc with rfl | hc
      · exact hv
      · exact h.2 c hc

/-- A write keeps the canonical form. -/
theorem wf_write (m : Memory) (k : Nat) (v : Byte) (h : m.wf) : (write m k v).wf := by
  induction m with
  | nil => simpa [write] using wf_entry_append [] k v ⟨List.Pairwise.nil, by simp⟩ (by simp)
  | cons c m ih =>
    have hp := List.pairwise_cons.1 h.1
    have hm : wf m := ⟨hp.2, fun d hd => h.2 d (List.mem_cons_of_mem _ hd)⟩
    simp only [write]
    split
    · next hlt =>
      refine wf_entry_append _ k v h (fun d hd => ?_)
      rcases List.mem_cons.1 hd with rfl | hd
      · exact hlt
      · exact Nat.lt_trans hlt (hp.1 d hd)
    · next hlt =>
      split
      · next heq =>
        have hdrop : m.dropWhile (fun d => d.1 ≤ k) = m := by
          cases m with
          | nil => rfl
          | cons d m => exact List.dropWhile_cons_of_neg (by simpa using (heq ▸ hp.1 d (by simp)))
        rw [hdrop]
        exact wf_entry_append _ k v hm (fun d hd => heq ▸ hp.1 d hd)
      · next hne =>
        have hw := ih hm
        refine ⟨List.pairwise_cons.2 ⟨fun d hd => ?_, hw.1⟩, fun d hd => ?_⟩
        · rcases mem_write m k v d hd with ⟨rfl, -⟩ | h'
          · show c.1 < k; omega
          · exact hp.1 d h'
        · rcases List.mem_cons.1 hd with rfl | hd
          · exact h.2 _ (by simp)
          · exact hw.2 d hd

end Sys2Proof.Machine.Memory
end

