-- ==== Sys2Proof/Laws/State.lean ====
section
/-! SUPPORT. One lemma per field per setter: what a setter writes and what it leaves. -/

namespace Sys2Proof.Machine.State

/-! ### `setA` -/

@[simp] theorem setA_a (s : State) (v : Byte) : (s.setA v).a = v := rfl
@[simp] theorem setA_x (s : State) (v : Byte) : (s.setA v).x = s.x := rfl
@[simp] theorem setA_y (s : State) (v : Byte) : (s.setA v).y = s.y := rfl
@[simp] theorem setA_sp (s : State) (v : Byte) : (s.setA v).sp = s.sp := rfl
@[simp] theorem setA_p (s : State) (v : Byte) : (s.setA v).p = s.p := rfl
@[simp] theorem setA_pc (s : State) (v : Byte) : (s.setA v).pc = s.pc := rfl
@[simp] theorem setA_cyc (s : State) (v : Byte) : (s.setA v).cyc = s.cyc := rfl
@[simp] theorem setA_halted (s : State) (v : Byte) : (s.setA v).halted = s.halted := rfl
@[simp] theorem setA_fault (s : State) (v : Byte) : (s.setA v).fault = s.fault := rfl
@[simp] theorem setA_dmaStall (s : State) (v : Byte) : (s.setA v).dmaStall = s.dmaStall := rfl
@[simp] theorem setA_stepCycles (s : State) (v : Byte) : (s.setA v).stepCycles = s.stepCycles := rfl
@[simp] theorem setA_ram (s : State) (v : Byte) : (s.setA v).ram = s.ram := rfl
@[simp] theorem setA_nmiPrev (s : State) (v : Byte) : (s.setA v).nmiPrev = s.nmiPrev := rfl
@[simp] theorem setA_ppu (s : State) (v : Byte) : (s.setA v).ppu = s.ppu := rfl
@[simp] theorem setA_apu (s : State) (v : Byte) : (s.setA v).apu = s.apu := rfl
@[simp] theorem setA_params (s : State) (v : Byte) : (s.setA v).params = s.params := rfl
@[simp] theorem setA_resetReq (s : State) (v : Byte) : (s.setA v).resetReq = s.resetReq := rfl
@[simp] theorem setA_stopReq (s : State) (v : Byte) : (s.setA v).stopReq = s.stopReq := rfl
@[simp] theorem setA_joypadReads (s : State) (v : Byte) : (s.setA v).joypadReads = s.joypadReads := rfl
@[simp] theorem setA_events (s : State) (v : Byte) : (s.setA v).events = s.events := rfl

/-! ### `setX` -/

@[simp] theorem setX_a (s : State) (v : Byte) : (s.setX v).a = s.a := rfl
@[simp] theorem setX_x (s : State) (v : Byte) : (s.setX v).x = v := rfl
@[simp] theorem setX_y (s : State) (v : Byte) : (s.setX v).y = s.y := rfl
@[simp] theorem setX_sp (s : State) (v : Byte) : (s.setX v).sp = s.sp := rfl
@[simp] theorem setX_p (s : State) (v : Byte) : (s.setX v).p = s.p := rfl
@[simp] theorem setX_pc (s : State) (v : Byte) : (s.setX v).pc = s.pc := rfl
@[simp] theorem setX_cyc (s : State) (v : Byte) : (s.setX v).cyc = s.cyc := rfl
@[simp] theorem setX_halted (s : State) (v : Byte) : (s.setX v).halted = s.halted := rfl
@[simp] theorem setX_fault (s : State) (v : Byte) : (s.setX v).fault = s.fault := rfl
@[simp] theorem setX_dmaStall (s : State) (v : Byte) : (s.setX v).dmaStall = s.dmaStall := rfl
@[simp] theorem setX_stepCycles (s : State) (v : Byte) : (s.setX v).stepCycles = s.stepCycles := rfl
@[simp] theorem setX_ram (s : State) (v : Byte) : (s.setX v).ram = s.ram := rfl
@[simp] theorem setX_nmiPrev (s : State) (v : Byte) : (s.setX v).nmiPrev = s.nmiPrev := rfl
@[simp] theorem setX_ppu (s : State) (v : Byte) : (s.setX v).ppu = s.ppu := rfl
@[simp] theorem setX_apu (s : State) (v : Byte) : (s.setX v).apu = s.apu := rfl
@[simp] theorem setX_params (s : State) (v : Byte) : (s.setX v).params = s.params := rfl
@[simp] theorem setX_resetReq (s : State) (v : Byte) : (s.setX v).resetReq = s.resetReq := rfl
@[simp] theorem setX_stopReq (s : State) (v : Byte) : (s.setX v).stopReq = s.stopReq := rfl
@[simp] theorem setX_joypadReads (s : State) (v : Byte) : (s.setX v).joypadReads = s.joypadReads := rfl
@[simp] theorem setX_events (s : State) (v : Byte) : (s.setX v).events = s.events := rfl

/-! ### `setY` -/

@[simp] theorem setY_a (s : State) (v : Byte) : (s.setY v).a = s.a := rfl
@[simp] theorem setY_x (s : State) (v : Byte) : (s.setY v).x = s.x := rfl
@[simp] theorem setY_y (s : State) (v : Byte) : (s.setY v).y = v := rfl
@[simp] theorem setY_sp (s : State) (v : Byte) : (s.setY v).sp = s.sp := rfl
@[simp] theorem setY_p (s : State) (v : Byte) : (s.setY v).p = s.p := rfl
@[simp] theorem setY_pc (s : State) (v : Byte) : (s.setY v).pc = s.pc := rfl
@[simp] theorem setY_cyc (s : State) (v : Byte) : (s.setY v).cyc = s.cyc := rfl
@[simp] theorem setY_halted (s : State) (v : Byte) : (s.setY v).halted = s.halted := rfl
@[simp] theorem setY_fault (s : State) (v : Byte) : (s.setY v).fault = s.fault := rfl
@[simp] theorem setY_dmaStall (s : State) (v : Byte) : (s.setY v).dmaStall = s.dmaStall := rfl
@[simp] theorem setY_stepCycles (s : State) (v : Byte) : (s.setY v).stepCycles = s.stepCycles := rfl
@[simp] theorem setY_ram (s : State) (v : Byte) : (s.setY v).ram = s.ram := rfl
@[simp] theorem setY_nmiPrev (s : State) (v : Byte) : (s.setY v).nmiPrev = s.nmiPrev := rfl
@[simp] theorem setY_ppu (s : State) (v : Byte) : (s.setY v).ppu = s.ppu := rfl
@[simp] theorem setY_apu (s : State) (v : Byte) : (s.setY v).apu = s.apu := rfl
@[simp] theorem setY_params (s : State) (v : Byte) : (s.setY v).params = s.params := rfl
@[simp] theorem setY_resetReq (s : State) (v : Byte) : (s.setY v).resetReq = s.resetReq := rfl
@[simp] theorem setY_stopReq (s : State) (v : Byte) : (s.setY v).stopReq = s.stopReq := rfl
@[simp] theorem setY_joypadReads (s : State) (v : Byte) : (s.setY v).joypadReads = s.joypadReads := rfl
@[simp] theorem setY_events (s : State) (v : Byte) : (s.setY v).events = s.events := rfl

/-! ### `setSP` -/

@[simp] theorem setSP_a (s : State) (v : Byte) : (s.setSP v).a = s.a := rfl
@[simp] theorem setSP_x (s : State) (v : Byte) : (s.setSP v).x = s.x := rfl
@[simp] theorem setSP_y (s : State) (v : Byte) : (s.setSP v).y = s.y := rfl
@[simp] theorem setSP_sp (s : State) (v : Byte) : (s.setSP v).sp = v := rfl
@[simp] theorem setSP_p (s : State) (v : Byte) : (s.setSP v).p = s.p := rfl
@[simp] theorem setSP_pc (s : State) (v : Byte) : (s.setSP v).pc = s.pc := rfl
@[simp] theorem setSP_cyc (s : State) (v : Byte) : (s.setSP v).cyc = s.cyc := rfl
@[simp] theorem setSP_halted (s : State) (v : Byte) : (s.setSP v).halted = s.halted := rfl
@[simp] theorem setSP_fault (s : State) (v : Byte) : (s.setSP v).fault = s.fault := rfl
@[simp] theorem setSP_dmaStall (s : State) (v : Byte) : (s.setSP v).dmaStall = s.dmaStall := rfl
@[simp] theorem setSP_stepCycles (s : State) (v : Byte) : (s.setSP v).stepCycles = s.stepCycles := rfl
@[simp] theorem setSP_ram (s : State) (v : Byte) : (s.setSP v).ram = s.ram := rfl
@[simp] theorem setSP_nmiPrev (s : State) (v : Byte) : (s.setSP v).nmiPrev = s.nmiPrev := rfl
@[simp] theorem setSP_ppu (s : State) (v : Byte) : (s.setSP v).ppu = s.ppu := rfl
@[simp] theorem setSP_apu (s : State) (v : Byte) : (s.setSP v).apu = s.apu := rfl
@[simp] theorem setSP_params (s : State) (v : Byte) : (s.setSP v).params = s.params := rfl
@[simp] theorem setSP_resetReq (s : State) (v : Byte) : (s.setSP v).resetReq = s.resetReq := rfl
@[simp] theorem setSP_stopReq (s : State) (v : Byte) : (s.setSP v).stopReq = s.stopReq := rfl
@[simp] theorem setSP_joypadReads (s : State) (v : Byte) : (s.setSP v).joypadReads = s.joypadReads := rfl
@[simp] theorem setSP_events (s : State) (v : Byte) : (s.setSP v).events = s.events := rfl

/-! ### `setP` -/

@[simp] theorem setP_a (s : State) (v : Byte) : (s.setP v).a = s.a := rfl
@[simp] theorem setP_x (s : State) (v : Byte) : (s.setP v).x = s.x := rfl
@[simp] theorem setP_y (s : State) (v : Byte) : (s.setP v).y = s.y := rfl
@[simp] theorem setP_sp (s : State) (v : Byte) : (s.setP v).sp = s.sp := rfl
@[simp] theorem setP_p (s : State) (v : Byte) : (s.setP v).p = v := rfl
@[simp] theorem setP_pc (s : State) (v : Byte) : (s.setP v).pc = s.pc := rfl
@[simp] theorem setP_cyc (s : State) (v : Byte) : (s.setP v).cyc = s.cyc := rfl
@[simp] theorem setP_halted (s : State) (v : Byte) : (s.setP v).halted = s.halted := rfl
@[simp] theorem setP_fault (s : State) (v : Byte) : (s.setP v).fault = s.fault := rfl
@[simp] theorem setP_dmaStall (s : State) (v : Byte) : (s.setP v).dmaStall = s.dmaStall := rfl
@[simp] theorem setP_stepCycles (s : State) (v : Byte) : (s.setP v).stepCycles = s.stepCycles := rfl
@[simp] theorem setP_ram (s : State) (v : Byte) : (s.setP v).ram = s.ram := rfl
@[simp] theorem setP_nmiPrev (s : State) (v : Byte) : (s.setP v).nmiPrev = s.nmiPrev := rfl
@[simp] theorem setP_ppu (s : State) (v : Byte) : (s.setP v).ppu = s.ppu := rfl
@[simp] theorem setP_apu (s : State) (v : Byte) : (s.setP v).apu = s.apu := rfl
@[simp] theorem setP_params (s : State) (v : Byte) : (s.setP v).params = s.params := rfl
@[simp] theorem setP_resetReq (s : State) (v : Byte) : (s.setP v).resetReq = s.resetReq := rfl
@[simp] theorem setP_stopReq (s : State) (v : Byte) : (s.setP v).stopReq = s.stopReq := rfl
@[simp] theorem setP_joypadReads (s : State) (v : Byte) : (s.setP v).joypadReads = s.joypadReads := rfl
@[simp] theorem setP_events (s : State) (v : Byte) : (s.setP v).events = s.events := rfl

/-! ### `setPC` -/

@[simp] theorem setPC_a (s : State) (v : Word) : (s.setPC v).a = s.a := rfl
@[simp] theorem setPC_x (s : State) (v : Word) : (s.setPC v).x = s.x := rfl
@[simp] theorem setPC_y (s : State) (v : Word) : (s.setPC v).y = s.y := rfl
@[simp] theorem setPC_sp (s : State) (v : Word) : (s.setPC v).sp = s.sp := rfl
@[simp] theorem setPC_p (s : State) (v : Word) : (s.setPC v).p = s.p := rfl
@[simp] theorem setPC_pc (s : State) (v : Word) : (s.setPC v).pc = v := rfl
@[simp] theorem setPC_cyc (s : State) (v : Word) : (s.setPC v).cyc = s.cyc := rfl
@[simp] theorem setPC_halted (s : State) (v : Word) : (s.setPC v).halted = s.halted := rfl
@[simp] theorem setPC_fault (s : State) (v : Word) : (s.setPC v).fault = s.fault := rfl
@[simp] theorem setPC_dmaStall (s : State) (v : Word) : (s.setPC v).dmaStall = s.dmaStall := rfl
@[simp] theorem setPC_stepCycles (s : State) (v : Word) : (s.setPC v).stepCycles = s.stepCycles := rfl
@[simp] theorem setPC_ram (s : State) (v : Word) : (s.setPC v).ram = s.ram := rfl
@[simp] theorem setPC_nmiPrev (s : State) (v : Word) : (s.setPC v).nmiPrev = s.nmiPrev := rfl
@[simp] theorem setPC_ppu (s : State) (v : Word) : (s.setPC v).ppu = s.ppu := rfl
@[simp] theorem setPC_apu (s : State) (v : Word) : (s.setPC v).apu = s.apu := rfl
@[simp] theorem setPC_params (s : State) (v : Word) : (s.setPC v).params = s.params := rfl
@[simp] theorem setPC_resetReq (s : State) (v : Word) : (s.setPC v).resetReq = s.resetReq := rfl
@[simp] theorem setPC_stopReq (s : State) (v : Word) : (s.setPC v).stopReq = s.stopReq := rfl
@[simp] theorem setPC_joypadReads (s : State) (v : Word) : (s.setPC v).joypadReads = s.joypadReads := rfl
@[simp] theorem setPC_events (s : State) (v : Word) : (s.setPC v).events = s.events := rfl

/-! ### `setCyc` -/

@[simp] theorem setCyc_a (s : State) (v : Nat) : (s.setCyc v).a = s.a := rfl
@[simp] theorem setCyc_x (s : State) (v : Nat) : (s.setCyc v).x = s.x := rfl
@[simp] theorem setCyc_y (s : State) (v : Nat) : (s.setCyc v).y = s.y := rfl
@[simp] theorem setCyc_sp (s : State) (v : Nat) : (s.setCyc v).sp = s.sp := rfl
@[simp] theorem setCyc_p (s : State) (v : Nat) : (s.setCyc v).p = s.p := rfl
@[simp] theorem setCyc_pc (s : State) (v : Nat) : (s.setCyc v).pc = s.pc := rfl
@[simp] theorem setCyc_cyc (s : State) (v : Nat) : (s.setCyc v).cyc = v := rfl
@[simp] theorem setCyc_halted (s : State) (v : Nat) : (s.setCyc v).halted = s.halted := rfl
@[simp] theorem setCyc_fault (s : State) (v : Nat) : (s.setCyc v).fault = s.fault := rfl
@[simp] theorem setCyc_dmaStall (s : State) (v : Nat) : (s.setCyc v).dmaStall = s.dmaStall := rfl
@[simp] theorem setCyc_stepCycles (s : State) (v : Nat) : (s.setCyc v).stepCycles = s.stepCycles := rfl
@[simp] theorem setCyc_ram (s : State) (v : Nat) : (s.setCyc v).ram = s.ram := rfl
@[simp] theorem setCyc_nmiPrev (s : State) (v : Nat) : (s.setCyc v).nmiPrev = s.nmiPrev := rfl
@[simp] theorem setCyc_ppu (s : State) (v : Nat) : (s.setCyc v).ppu = s.ppu := rfl
@[simp] theorem setCyc_apu (s : State) (v : Nat) : (s.setCyc v).apu = s.apu := rfl
@[simp] theorem setCyc_params (s : State) (v : Nat) : (s.setCyc v).params = s.params := rfl
@[simp] theorem setCyc_resetReq (s : State) (v : Nat) : (s.setCyc v).resetReq = s.resetReq := rfl
@[simp] theorem setCyc_stopReq (s : State) (v : Nat) : (s.setCyc v).stopReq = s.stopReq := rfl
@[simp] theorem setCyc_joypadReads (s : State) (v : Nat) : (s.setCyc v).joypadReads = s.joypadReads := rfl
@[simp] theorem setCyc_events (s : State) (v : Nat) : (s.setCyc v).events = s.events := rfl

/-! ### `setHalted` -/

@[simp] theorem setHalted_a (s : State) (v : Bool) : (s.setHalted v).a = s.a := rfl
@[simp] theorem setHalted_x (s : State) (v : Bool) : (s.setHalted v).x = s.x := rfl
@[simp] theorem setHalted_y (s : State) (v : Bool) : (s.setHalted v).y = s.y := rfl
@[simp] theorem setHalted_sp (s : State) (v : Bool) : (s.setHalted v).sp = s.sp := rfl
@[simp] theorem setHalted_p (s : State) (v : Bool) : (s.setHalted v).p = s.p := rfl
@[simp] theorem setHalted_pc (s : State) (v : Bool) : (s.setHalted v).pc = s.pc := rfl
@[simp] theorem setHalted_cyc (s : State) (v : Bool) : (s.setHalted v).cyc = s.cyc := rfl
@[simp] theorem setHalted_halted (s : State) (v : Bool) : (s.setHalted v).halted = v := rfl
@[simp] theorem setHalted_fault (s : State) (v : Bool) : (s.setHalted v).fault = s.fault := rfl
@[simp] theorem setHalted_dmaStall (s : State) (v : Bool) : (s.setHalted v).dmaStall = s.dmaStall := rfl
@[simp] theorem setHalted_stepCycles (s : State) (v : Bool) : (s.setHalted v).stepCycles = s.stepCycles := rfl
@[simp] theorem setHalted_ram (s : State) (v : Bool) : (s.setHalted v).ram = s.ram := rfl
@[simp] theorem setHalted_nmiPrev (s : State) (v : Bool) : (s.setHalted v).nmiPrev = s.nmiPrev := rfl
@[simp] theorem setHalted_ppu (s : State) (v : Bool) : (s.setHalted v).ppu = s.ppu := rfl
@[simp] theorem setHalted_apu (s : State) (v : Bool) : (s.setHalted v).apu = s.apu := rfl
@[simp] theorem setHalted_params (s : State) (v : Bool) : (s.setHalted v).params = s.params := rfl
@[simp] theorem setHalted_resetReq (s : State) (v : Bool) : (s.setHalted v).resetReq = s.resetReq := rfl
@[simp] theorem setHalted_stopReq (s : State) (v : Bool) : (s.setHalted v).stopReq = s.stopReq := rfl
@[simp] theorem setHalted_joypadReads (s : State) (v : Bool) : (s.setHalted v).joypadReads = s.joypadReads := rfl
@[simp] theorem setHalted_events (s : State) (v : Bool) : (s.setHalted v).events = s.events := rfl

/-! ### `setFault` -/

@[simp] theorem setFault_a (s : State) (v : Option InvalidOpcode) : (s.setFault v).a = s.a := rfl
@[simp] theorem setFault_x (s : State) (v : Option InvalidOpcode) : (s.setFault v).x = s.x := rfl
@[simp] theorem setFault_y (s : State) (v : Option InvalidOpcode) : (s.setFault v).y = s.y := rfl
@[simp] theorem setFault_sp (s : State) (v : Option InvalidOpcode) : (s.setFault v).sp = s.sp := rfl
@[simp] theorem setFault_p (s : State) (v : Option InvalidOpcode) : (s.setFault v).p = s.p := rfl
@[simp] theorem setFault_pc (s : State) (v : Option InvalidOpcode) : (s.setFault v).pc = s.pc := rfl
@[simp] theorem setFault_cyc (s : State) (v : Option InvalidOpcode) : (s.setFault v).cyc = s.cyc := rfl
@[simp] theorem setFault_halted (s : State) (v : Option InvalidOpcode) : (s.setFault v).halted = s.halted := rfl
@[simp] theorem setFault_fault (s : State) (v : Option InvalidOpcode) : (s.setFault v).fault = v := rfl
@[simp] theorem setFault_dmaStall (s : State) (v : Option InvalidOpcode) : (s.setFault v).dmaStall = s.dmaStall := rfl
@[simp] theorem setFault_stepCycles (s : State) (v : Option InvalidOpcode) : (s.setFault v).stepCycles = s.stepCycles := rfl
@[simp] theorem setFault_ram (s : State) (v : Option InvalidOpcode) : (s.setFault v).ram = s.ram := rfl
@[simp] theorem setFault_nmiPrev (s : State) (v : Option InvalidOpcode) : (s.setFault v).nmiPrev = s.nmiPrev := rfl
@[simp] theorem setFault_ppu (s : State) (v : Option InvalidOpcode) : (s.setFault v).ppu = s.ppu := rfl
@[simp] theorem setFault_apu (s : State) (v : Option InvalidOpcode) : (s.setFault v).apu = s.apu := rfl
@[simp] theorem setFault_params (s : State) (v : Option InvalidOpcode) : (s.setFault v).params = s.params := rfl
@[simp] theorem setFault_resetReq (s : State) (v : Option InvalidOpcode) : (s.setFault v).resetReq = s.resetReq := rfl
@[simp] theorem setFault_stopReq (s : State) (v : Option InvalidOpcode) : (s.setFault v).stopReq = s.stopReq := rfl
@[simp] theorem setFault_joypadReads (s : State) (v : Option InvalidOpcode) : (s.setFault v).joypadReads = s.joypadReads := rfl
@[simp] theorem setFault_events (s : State) (v : Option InvalidOpcode) : (s.setFault v).events = s.events := rfl

/-! ### `setDmaStall` -/

@[simp] theorem setDmaStall_a (s : State) (v : Nat) : (s.setDmaStall v).a = s.a := rfl
@[simp] theorem setDmaStall_x (s : State) (v : Nat) : (s.setDmaStall v).x = s.x := rfl
@[simp] theorem setDmaStall_y (s : State) (v : Nat) : (s.setDmaStall v).y = s.y := rfl
@[simp] theorem setDmaStall_sp (s : State) (v : Nat) : (s.setDmaStall v).sp = s.sp := rfl
@[simp] theorem setDmaStall_p (s : State) (v : Nat) : (s.setDmaStall v).p = s.p := rfl
@[simp] theorem setDmaStall_pc (s : State) (v : Nat) : (s.setDmaStall v).pc = s.pc := rfl
@[simp] theorem setDmaStall_cyc (s : State) (v : Nat) : (s.setDmaStall v).cyc = s.cyc := rfl
@[simp] theorem setDmaStall_halted (s : State) (v : Nat) : (s.setDmaStall v).halted = s.halted := rfl
@[simp] theorem setDmaStall_fault (s : State) (v : Nat) : (s.setDmaStall v).fault = s.fault := rfl
@[simp] theorem setDmaStall_dmaStall (s : State) (v : Nat) : (s.setDmaStall v).dmaStall = v := rfl
@[simp] theorem setDmaStall_stepCycles (s : State) (v : Nat) : (s.setDmaStall v).stepCycles = s.stepCycles := rfl
@[simp] theorem setDmaStall_ram (s : State) (v : Nat) : (s.setDmaStall v).ram = s.ram := rfl
@[simp] theorem setDmaStall_nmiPrev (s : State) (v : Nat) : (s.setDmaStall v).nmiPrev = s.nmiPrev := rfl
@[simp] theorem setDmaStall_ppu (s : State) (v : Nat) : (s.setDmaStall v).ppu = s.ppu := rfl
@[simp] theorem setDmaStall_apu (s : State) (v : Nat) : (s.setDmaStall v).apu = s.apu := rfl
@[simp] theorem setDmaStall_params (s : State) (v : Nat) : (s.setDmaStall v).params = s.params := rfl
@[simp] theorem setDmaStall_resetReq (s : State) (v : Nat) : (s.setDmaStall v).resetReq = s.resetReq := rfl
@[simp] theorem setDmaStall_stopReq (s : State) (v : Nat) : (s.setDmaStall v).stopReq = s.stopReq := rfl
@[simp] theorem setDmaStall_joypadReads (s : State) (v : Nat) : (s.setDmaStall v).joypadReads = s.joypadReads := rfl
@[simp] theorem setDmaStall_events (s : State) (v : Nat) : (s.setDmaStall v).events = s.events := rfl

/-! ### `setStepCycles` -/

@[simp] theorem setStepCycles_a (s : State) (v : Nat) : (s.setStepCycles v).a = s.a := rfl
@[simp] theorem setStepCycles_x (s : State) (v : Nat) : (s.setStepCycles v).x = s.x := rfl
@[simp] theorem setStepCycles_y (s : State) (v : Nat) : (s.setStepCycles v).y = s.y := rfl
@[simp] theorem setStepCycles_sp (s : State) (v : Nat) : (s.setStepCycles v).sp = s.sp := rfl
@[simp] theorem setStepCycles_p (s : State) (v : Nat) : (s.setStepCycles v).p = s.p := rfl
@[simp] theorem setStepCycles_pc (s : State) (v : Nat) : (s.setStepCycles v).pc = s.pc := rfl
@[simp] theorem setStepCycles_cyc (s : State) (v : Nat) : (s.setStepCycles v).cyc = s.cyc := rfl
@[simp] theorem setStepCycles_halted (s : State) (v : Nat) : (s.setStepCycles v).halted = s.halted := rfl
@[simp] theorem setStepCycles_fault (s : State) (v : Nat) : (s.setStepCycles v).fault = s.fault := rfl
@[simp] theorem setStepCycles_dmaStall (s : State) (v : Nat) : (s.setStepCycles v).dmaStall = s.dmaStall := rfl
@[simp] theorem setStepCycles_stepCycles (s : State) (v : Nat) : (s.setStepCycles v).stepCycles = v := rfl
@[simp] theorem setStepCycles_ram (s : State) (v : Nat) : (s.setStepCycles v).ram = s.ram := rfl
@[simp] theorem setStepCycles_nmiPrev (s : State) (v : Nat) : (s.setStepCycles v).nmiPrev = s.nmiPrev := rfl
@[simp] theorem setStepCycles_ppu (s : State) (v : Nat) : (s.setStepCycles v).ppu = s.ppu := rfl
@[simp] theorem setStepCycles_apu (s : State) (v : Nat) : (s.setStepCycles v).apu = s.apu := rfl
@[simp] theorem setStepCycles_params (s : State) (v : Nat) : (s.setStepCycles v).params = s.params := rfl
@[simp] theorem setStepCycles_resetReq (s : State) (v : Nat) : (s.setStepCycles v).resetReq = s.resetReq := rfl
@[simp] theorem setStepCycles_stopReq (s : State) (v : Nat) : (s.setStepCycles v).stopReq = s.stopReq := rfl
@[simp] theorem setStepCycles_joypadReads (s : State) (v : Nat) : (s.setStepCycles v).joypadReads = s.joypadReads := rfl
@[simp] theorem setStepCycles_events (s : State) (v : Nat) : (s.setStepCycles v).events = s.events := rfl

/-! ### `setRam` -/

@[simp] theorem setRam_a (s : State) (v : Memory) : (s.setRam v).a = s.a := rfl
@[simp] theorem setRam_x (s : State) (v : Memory) : (s.setRam v).x = s.x := rfl
@[simp] theorem setRam_y (s : State) (v : Memory) : (s.setRam v).y = s.y := rfl
@[simp] theorem setRam_sp (s : State) (v : Memory) : (s.setRam v).sp = s.sp := rfl
@[simp] theorem setRam_p (s : State) (v : Memory) : (s.setRam v).p = s.p := rfl
@[simp] theorem setRam_pc (s : State) (v : Memory) : (s.setRam v).pc = s.pc := rfl
@[simp] theorem setRam_cyc (s : State) (v : Memory) : (s.setRam v).cyc = s.cyc := rfl
@[simp] theorem setRam_halted (s : State) (v : Memory) : (s.setRam v).halted = s.halted := rfl
@[simp] theorem setRam_fault (s : State) (v : Memory) : (s.setRam v).fault = s.fault := rfl
@[simp] theorem setRam_dmaStall (s : State) (v : Memory) : (s.setRam v).dmaStall = s.dmaStall := rfl
@[simp] theorem setRam_stepCycles (s : State) (v : Memory) : (s.setRam v).stepCycles = s.stepCycles := rfl
@[simp] theorem setRam_ram (s : State) (v : Memory) : (s.setRam v).ram = v := rfl
@[simp] theorem setRam_nmiPrev (s : State) (v : Memory) : (s.setRam v).nmiPrev = s.nmiPrev := rfl
@[simp] theorem setRam_ppu (s : State) (v : Memory) : (s.setRam v).ppu = s.ppu := rfl
@[simp] theorem setRam_apu (s : State) (v : Memory) : (s.setRam v).apu = s.apu := rfl
@[simp] theorem setRam_params (s : State) (v : Memory) : (s.setRam v).params = s.params := rfl
@[simp] theorem setRam_resetReq (s : State) (v : Memory) : (s.setRam v).resetReq = s.resetReq := rfl
@[simp] theorem setRam_stopReq (s : State) (v : Memory) : (s.setRam v).stopReq = s.stopReq := rfl
@[simp] theorem setRam_joypadReads (s : State) (v : Memory) : (s.setRam v).joypadReads = s.joypadReads := rfl
@[simp] theorem setRam_events (s : State) (v : Memory) : (s.setRam v).events = s.events := rfl

/-! ### `setNmiPrev` -/

@[simp] theorem setNmiPrev_a (s : State) (v : Bool) : (s.setNmiPrev v).a = s.a := rfl
@[simp] theorem setNmiPrev_x (s : State) (v : Bool) : (s.setNmiPrev v).x = s.x := rfl
@[simp] theorem setNmiPrev_y (s : State) (v : Bool) : (s.setNmiPrev v).y = s.y := rfl
@[simp] theorem setNmiPrev_sp (s : State) (v : Bool) : (s.setNmiPrev v).sp = s.sp := rfl
@[simp] theorem setNmiPrev_p (s : State) (v : Bool) : (s.setNmiPrev v).p = s.p := rfl
@[simp] theorem setNmiPrev_pc (s : State) (v : Bool) : (s.setNmiPrev v).pc = s.pc := rfl
@[simp] theorem setNmiPrev_cyc (s : State) (v : Bool) : (s.setNmiPrev v).cyc = s.cyc := rfl
@[simp] theorem setNmiPrev_halted (s : State) (v : Bool) : (s.setNmiPrev v).halted = s.halted := rfl
@[simp] theorem setNmiPrev_fault (s : State) (v : Bool) : (s.setNmiPrev v).fault = s.fault := rfl
@[simp] theorem setNmiPrev_dmaStall (s : State) (v : Bool) : (s.setNmiPrev v).dmaStall = s.dmaStall := rfl
@[simp] theorem setNmiPrev_stepCycles (s : State) (v : Bool) : (s.setNmiPrev v).stepCycles = s.stepCycles := rfl
@[simp] theorem setNmiPrev_ram (s : State) (v : Bool) : (s.setNmiPrev v).ram = s.ram := rfl
@[simp] theorem setNmiPrev_nmiPrev (s : State) (v : Bool) : (s.setNmiPrev v).nmiPrev = v := rfl
@[simp] theorem setNmiPrev_ppu (s : State) (v : Bool) : (s.setNmiPrev v).ppu = s.ppu := rfl
@[simp] theorem setNmiPrev_apu (s : State) (v : Bool) : (s.setNmiPrev v).apu = s.apu := rfl
@[simp] theorem setNmiPrev_params (s : State) (v : Bool) : (s.setNmiPrev v).params = s.params := rfl
@[simp] theorem setNmiPrev_resetReq (s : State) (v : Bool) : (s.setNmiPrev v).resetReq = s.resetReq := rfl
@[simp] theorem setNmiPrev_stopReq (s : State) (v : Bool) : (s.setNmiPrev v).stopReq = s.stopReq := rfl
@[simp] theorem setNmiPrev_joypadReads (s : State) (v : Bool) : (s.setNmiPrev v).joypadReads = s.joypadReads := rfl
@[simp] theorem setNmiPrev_events (s : State) (v : Bool) : (s.setNmiPrev v).events = s.events := rfl

/-! ### `setPpu` -/

@[simp] theorem setPpu_a (s : State) (v : Ppu) : (s.setPpu v).a = s.a := rfl
@[simp] theorem setPpu_x (s : State) (v : Ppu) : (s.setPpu v).x = s.x := rfl
@[simp] theorem setPpu_y (s : State) (v : Ppu) : (s.setPpu v).y = s.y := rfl
@[simp] theorem setPpu_sp (s : State) (v : Ppu) : (s.setPpu v).sp = s.sp := rfl
@[simp] theorem setPpu_p (s : State) (v : Ppu) : (s.setPpu v).p = s.p := rfl
@[simp] theorem setPpu_pc (s : State) (v : Ppu) : (s.setPpu v).pc = s.pc := rfl
@[simp] theorem setPpu_cyc (s : State) (v : Ppu) : (s.setPpu v).cyc = s.cyc := rfl
@[simp] theorem setPpu_halted (s : State) (v : Ppu) : (s.setPpu v).halted = s.halted := rfl
@[simp] theorem setPpu_fault (s : State) (v : Ppu) : (s.setPpu v).fault = s.fault := rfl
@[simp] theorem setPpu_dmaStall (s : State) (v : Ppu) : (s.setPpu v).dmaStall = s.dmaStall := rfl
@[simp] theorem setPpu_stepCycles (s : State) (v : Ppu) : (s.setPpu v).stepCycles = s.stepCycles := rfl
@[simp] theorem setPpu_ram (s : State) (v : Ppu) : (s.setPpu v).ram = s.ram := rfl
@[simp] theorem setPpu_nmiPrev (s : State) (v : Ppu) : (s.setPpu v).nmiPrev = s.nmiPrev := rfl
@[simp] theorem setPpu_ppu (s : State) (v : Ppu) : (s.setPpu v).ppu = v := rfl
@[simp] theorem setPpu_apu (s : State) (v : Ppu) : (s.setPpu v).apu = s.apu := rfl
@[simp] theorem setPpu_params (s : State) (v : Ppu) : (s.setPpu v).params = s.params := rfl
@[simp] theorem setPpu_resetReq (s : State) (v : Ppu) : (s.setPpu v).resetReq = s.resetReq := rfl
@[simp] theorem setPpu_stopReq (s : State) (v : Ppu) : (s.setPpu v).stopReq = s.stopReq := rfl
@[simp] theorem setPpu_joypadReads (s : State) (v : Ppu) : (s.setPpu v).joypadReads = s.joypadReads := rfl
@[simp] theorem setPpu_events (s : State) (v : Ppu) : (s.setPpu v).events = s.events := rfl

/-! ### `setApu` -/

@[simp] theorem setApu_a (s : State) (v : Apu) : (s.setApu v).a = s.a := rfl
@[simp] theorem setApu_x (s : State) (v : Apu) : (s.setApu v).x = s.x := rfl
@[simp] theorem setApu_y (s : State) (v : Apu) : (s.setApu v).y = s.y := rfl
@[simp] theorem setApu_sp (s : State) (v : Apu) : (s.setApu v).sp = s.sp := rfl
@[simp] theorem setApu_p (s : State) (v : Apu) : (s.setApu v).p = s.p := rfl
@[simp] theorem setApu_pc (s : State) (v : Apu) : (s.setApu v).pc = s.pc := rfl
@[simp] theorem setApu_cyc (s : State) (v : Apu) : (s.setApu v).cyc = s.cyc := rfl
@[simp] theorem setApu_halted (s : State) (v : Apu) : (s.setApu v).halted = s.halted := rfl
@[simp] theorem setApu_fault (s : State) (v : Apu) : (s.setApu v).fault = s.fault := rfl
@[simp] theorem setApu_dmaStall (s : State) (v : Apu) : (s.setApu v).dmaStall = s.dmaStall := rfl
@[simp] theorem setApu_stepCycles (s : State) (v : Apu) : (s.setApu v).stepCycles = s.stepCycles := rfl
@[simp] theorem setApu_ram (s : State) (v : Apu) : (s.setApu v).ram = s.ram := rfl
@[simp] theorem setApu_nmiPrev (s : State) (v : Apu) : (s.setApu v).nmiPrev = s.nmiPrev := rfl
@[simp] theorem setApu_ppu (s : State) (v : Apu) : (s.setApu v).ppu = s.ppu := rfl
@[simp] theorem setApu_apu (s : State) (v : Apu) : (s.setApu v).apu = v := rfl
@[simp] theorem setApu_params (s : State) (v : Apu) : (s.setApu v).params = s.params := rfl
@[simp] theorem setApu_resetReq (s : State) (v : Apu) : (s.setApu v).resetReq = s.resetReq := rfl
@[simp] theorem setApu_stopReq (s : State) (v : Apu) : (s.setApu v).stopReq = s.stopReq := rfl
@[simp] theorem setApu_joypadReads (s : State) (v : Apu) : (s.setApu v).joypadReads = s.joypadReads := rfl
@[simp] theorem setApu_events (s : State) (v : Apu) : (s.setApu v).events = s.events := rfl

/-! ### `setResetReq` -/

@[simp] theorem setResetReq_a (s : State) (v : Bool) : (s.setResetReq v).a = s.a := rfl
@[simp] theorem setResetReq_x (s : State) (v : Bool) : (s.setResetReq v).x = s.x := rfl
@[simp] theorem setResetReq_y (s : State) (v : Bool) : (s.setResetReq v).y = s.y := rfl
@[simp] theorem setResetReq_sp (s : State) (v : Bool) : (s.setResetReq v).sp = s.sp := rfl
@[simp] theorem setResetReq_p (s : State) (v : Bool) : (s.setResetReq v).p = s.p := rfl
@[simp] theorem setResetReq_pc (s : State) (v : Bool) : (s.setResetReq v).pc = s.pc := rfl
@[simp] theorem setResetReq_cyc (s : State) (v : Bool) : (s.setResetReq v).cyc = s.cyc := rfl
@[simp] theorem setResetReq_halted (s : State) (v : Bool) : (s.setResetReq v).halted = s.halted := rfl
@[simp] theorem setResetReq_fault (s : State) (v : Bool) : (s.setResetReq v).fault = s.fault := rfl
@[simp] theorem setResetReq_dmaStall (s : State) (v : Bool) : (s.setResetReq v).dmaStall = s.dmaStall := rfl
@[simp] theorem setResetReq_stepCycles (s : State) (v : Bool) : (s.setResetReq v).stepCycles = s.stepCycles := rfl
@[simp] theorem setResetReq_ram (s : State) (v : Bool) : (s.setResetReq v).ram = s.ram := rfl
@[simp] theorem setResetReq_nmiPrev (s : State) (v : Bool) : (s.setResetReq v).nmiPrev = s.nmiPrev := rfl
@[simp] theorem setResetReq_ppu (s : State) (v : Bool) : (s.setResetReq v).ppu = s.ppu := rfl
@[simp] theorem setResetReq_apu (s : State) (v : Bool) : (s.setResetReq v).apu = s.apu := rfl
@[simp] theorem setResetReq_params (s : State) (v : Bool) : (s.setResetReq v).params = s.params := rfl
@[simp] theorem setResetReq_resetReq (s : State) (v : Bool) : (s.setResetReq v).resetReq = v := rfl
@[simp] theorem setResetReq_stopReq (s : State) (v : Bool) : (s.setResetReq v).stopReq = s.stopReq := rfl
@[simp] theorem setResetReq_joypadReads (s : State) (v : Bool) : (s.setResetReq v).joypadReads = s.joypadReads := rfl
@[simp] theorem setResetReq_events (s : State) (v : Bool) : (s.setResetReq v).events = s.events := rfl

/-! ### `setStopReq` -/

@[simp] theorem setStopReq_a (s : State) (v : Bool) : (s.setStopReq v).a = s.a := rfl
@[simp] theorem setStopReq_x (s : State) (v : Bool) : (s.setStopReq v).x = s.x := rfl
@[simp] theorem setStopReq_y (s : State) (v : Bool) : (s.setStopReq v).y = s.y := rfl
@[simp] theorem setStopReq_sp (s : State) (v : Bool) : (s.setStopReq v).sp = s.sp := rfl
@[simp] theorem setStopReq_p (s : State) (v : Bool) : (s.setStopReq v).p = s.p := rfl
@[simp] theorem setStopReq_pc (s : State) (v : Bool) : (s.setStopReq v).pc = s.pc := rfl
@[simp] theorem setStopReq_cyc (s : State) (v : Bool) : (s.setStopReq v).cyc = s.cyc := rfl
@[simp] theorem setStopReq_halted (s : State) (v : Bool) : (s.setStopReq v).halted = s.halted := rfl
@[simp] theorem setStopReq_fault (s : State) (v : Bool) : (s.setStopReq v).fault = s.fault := rfl
@[simp] theorem setStopReq_dmaStall (s : State) (v : Bool) : (s.setStopReq v).dmaStall = s.dmaStall := rfl
@[simp] theorem setStopReq_stepCycles (s : State) (v : Bool) : (s.setStopReq v).stepCycles = s.stepCycles := rfl
@[simp] theorem setStopReq_ram (s : State) (v : Bool) : (s.setStopReq v).ram = s.ram := rfl
@[simp] theorem setStopReq_nmiPrev (s : State) (v : Bool) : (s.setStopReq v).nmiPrev = s.nmiPrev := rfl
@[simp] theorem setStopReq_ppu (s : State) (v : Bool) : (s.setStopReq v).ppu = s.ppu := rfl
@[simp] theorem setStopReq_apu (s : State) (v : Bool) : (s.setStopReq v).apu = s.apu := rfl
@[simp] theorem setStopReq_params (s : State) (v : Bool) : (s.setStopReq v).params = s.params := rfl
@[simp] theorem setStopReq_resetReq (s : State) (v : Bool) : (s.setStopReq v).resetReq = s.resetReq := rfl
@[simp] theorem setStopReq_stopReq (s : State) (v : Bool) : (s.setStopReq v).stopReq = v := rfl
@[simp] theorem setStopReq_joypadReads (s : State) (v : Bool) : (s.setStopReq v).joypadReads = s.joypadReads := rfl
@[simp] theorem setStopReq_events (s : State) (v : Bool) : (s.setStopReq v).events = s.events := rfl

/-! ### `setJoypadReads` -/

@[simp] theorem setJoypadReads_a (s : State) (v : Nat) : (s.setJoypadReads v).a = s.a := rfl
@[simp] theorem setJoypadReads_x (s : State) (v : Nat) : (s.setJoypadReads v).x = s.x := rfl
@[simp] theorem setJoypadReads_y (s : State) (v : Nat) : (s.setJoypadReads v).y = s.y := rfl
@[simp] theorem setJoypadReads_sp (s : State) (v : Nat) : (s.setJoypadReads v).sp = s.sp := rfl
@[simp] theorem setJoypadReads_p (s : State) (v : Nat) : (s.setJoypadReads v).p = s.p := rfl
@[simp] theorem setJoypadReads_pc (s : State) (v : Nat) : (s.setJoypadReads v).pc = s.pc := rfl
@[simp] theorem setJoypadReads_cyc (s : State) (v : Nat) : (s.setJoypadReads v).cyc = s.cyc := rfl
@[simp] theorem setJoypadReads_halted (s : State) (v : Nat) : (s.setJoypadReads v).halted = s.halted := rfl
@[simp] theorem setJoypadReads_fault (s : State) (v : Nat) : (s.setJoypadReads v).fault = s.fault := rfl
@[simp] theorem setJoypadReads_dmaStall (s : State) (v : Nat) : (s.setJoypadReads v).dmaStall = s.dmaStall := rfl
@[simp] theorem setJoypadReads_stepCycles (s : State) (v : Nat) : (s.setJoypadReads v).stepCycles = s.stepCycles := rfl
@[simp] theorem setJoypadReads_ram (s : State) (v : Nat) : (s.setJoypadReads v).ram = s.ram := rfl
@[simp] theorem setJoypadReads_nmiPrev (s : State) (v : Nat) : (s.setJoypadReads v).nmiPrev = s.nmiPrev := rfl
@[simp] theorem setJoypadReads_ppu (s : State) (v : Nat) : (s.setJoypadReads v).ppu = s.ppu := rfl
@[simp] theorem setJoypadReads_apu (s : State) (v : Nat) : (s.setJoypadReads v).apu = s.apu := rfl
@[simp] theorem setJoypadReads_params (s : State) (v : Nat) : (s.setJoypadReads v).params = s.params := rfl
@[simp] theorem setJoypadReads_resetReq (s : State) (v : Nat) : (s.setJoypadReads v).resetReq = s.resetReq := rfl
@[simp] theorem setJoypadReads_stopReq (s : State) (v : Nat) : (s.setJoypadReads v).stopReq = s.stopReq := rfl
@[simp] theorem setJoypadReads_joypadReads (s : State) (v : Nat) : (s.setJoypadReads v).joypadReads = v := rfl
@[simp] theorem setJoypadReads_events (s : State) (v : Nat) : (s.setJoypadReads v).events = s.events := rfl

/-! ### `setEvents` -/

@[simp] theorem setEvents_a (s : State) (v : List Event) : (s.setEvents v).a = s.a := rfl
@[simp] theorem setEvents_x (s : State) (v : List Event) : (s.setEvents v).x = s.x := rfl
@[simp] theorem setEvents_y (s : State) (v : List Event) : (s.setEvents v).y = s.y := rfl
@[simp] theorem setEvents_sp (s : State) (v : List Event) : (s.setEvents v).sp = s.sp := rfl
@[simp] theorem setEvents_p (s : State) (v : List Event) : (s.setEvents v).p = s.p := rfl
@[simp] theorem setEvents_pc (s : State) (v : List Event) : (s.setEvents v).pc = s.pc := rfl
@[simp] theorem setEvents_cyc (s : State) (v : List Event) : (s.setEvents v).cyc = s.cyc := rfl
@[simp] theorem setEvents_halted (s : State) (v : List Event) : (s.setEvents v).halted = s.halted := rfl
@[simp] theorem setEvents_fault (s : State) (v : List Event) : (s.setEvents v).fault = s.fault := rfl
@[simp] theorem setEvents_dmaStall (s : State) (v : List Event) : (s.setEvents v).dmaStall = s.dmaStall := rfl
@[simp] theorem setEvents_stepCycles (s : State) (v : List Event) : (s.setEvents v).stepCycles = s.stepCycles := rfl
@[simp] theorem setEvents_ram (s : State) (v : List Event) : (s.setEvents v).ram = s.ram := rfl
@[simp] theorem setEvents_nmiPrev (s : State) (v : List Event) : (s.setEvents v).nmiPrev = s.nmiPrev := rfl
@[simp] theorem setEvents_ppu (s : State) (v : List Event) : (s.setEvents v).ppu = s.ppu := rfl
@[simp] theorem setEvents_apu (s : State) (v : List Event) : (s.setEvents v).apu = s.apu := rfl
@[simp] theorem setEvents_params (s : State) (v : List Event) : (s.setEvents v).params = s.params := rfl
@[simp] theorem setEvents_resetReq (s : State) (v : List Event) : (s.setEvents v).resetReq = s.resetReq := rfl
@[simp] theorem setEvents_stopReq (s : State) (v : List Event) : (s.setEvents v).stopReq = s.stopReq := rfl
@[simp] theorem setEvents_joypadReads (s : State) (v : List Event) : (s.setEvents v).joypadReads = s.joypadReads := rfl
@[simp] theorem setEvents_events (s : State) (v : List Event) : (s.setEvents v).events = v := rfl

/-! ### `emit` -/

@[simp] theorem emit_a (s : State) (e : Event) : (s.emit e).a = s.a := rfl
@[simp] theorem emit_x (s : State) (e : Event) : (s.emit e).x = s.x := rfl
@[simp] theorem emit_y (s : State) (e : Event) : (s.emit e).y = s.y := rfl
@[simp] theorem emit_sp (s : State) (e : Event) : (s.emit e).sp = s.sp := rfl
@[simp] theorem emit_p (s : State) (e : Event) : (s.emit e).p = s.p := rfl
@[simp] theorem emit_pc (s : State) (e : Event) : (s.emit e).pc = s.pc := rfl
@[simp] theorem emit_cyc (s : State) (e : Event) : (s.emit e).cyc = s.cyc := rfl
@[simp] theorem emit_halted (s : State) (e : Event) : (s.emit e).halted = s.halted := rfl
@[simp] theorem emit_fault (s : State) (e : Event) : (s.emit e).fault = s.fault := rfl
@[simp] theorem emit_dmaStall (s : State) (e : Event) : (s.emit e).dmaStall = s.dmaStall := rfl
@[simp] theorem emit_stepCycles (s : State) (e : Event) : (s.emit e).stepCycles = s.stepCycles := rfl
@[simp] theorem emit_ram (s : State) (e : Event) : (s.emit e).ram = s.ram := rfl
@[simp] theorem emit_nmiPrev (s : State) (e : Event) : (s.emit e).nmiPrev = s.nmiPrev := rfl
@[simp] theorem emit_ppu (s : State) (e : Event) : (s.emit e).ppu = s.ppu := rfl
@[simp] theorem emit_apu (s : State) (e : Event) : (s.emit e).apu = s.apu := rfl
@[simp] theorem emit_params (s : State) (e : Event) : (s.emit e).params = s.params := rfl
@[simp] theorem emit_resetReq (s : State) (e : Event) : (s.emit e).resetReq = s.resetReq := rfl
@[simp] theorem emit_stopReq (s : State) (e : Event) : (s.emit e).stopReq = s.stopReq := rfl
@[simp] theorem emit_joypadReads (s : State) (e : Event) : (s.emit e).joypadReads = s.joypadReads := rfl
@[simp] theorem emit_events (s : State) (e : Event) : (s.emit e).events = s.events ++ [e] := rfl

end Sys2Proof.Machine.State
end

