-- ==== Sys2Proof/Laws/Bus.lean ====
section
/-! SUPPORT. What the bus operations can do: which fields an access can touch, what it does at an address of memory, and which
fields a tick batch can touch. -/

namespace Sys2Proof.Machine

/-! ## The address map -/

theorem windowOf_ram_iff (a : Word) : windowOf a = .ram ↔ a.toNat ≤ 0x1FFF := by
  unfold windowOf; repeat' split
  all_goals simp_all

theorem windowOf_prg_iff (a : Word) : windowOf a = .prg ↔ 0x8000 ≤ a.toNat := by
  unfold windowOf; repeat' split
  all_goals simp_all
  all_goals omega

theorem windowOf_ppu_iff (a : Word) : windowOf a = .ppu ↔ 0x2000 ≤ a.toNat ∧ a.toNat ≤ 0x3FFF := by
  unfold windowOf; repeat' split
  all_goals simp_all
  all_goals omega

theorem windowOf_apuRegs_iff (a : Word) : windowOf a = .apuRegs ↔ 0x4000 ≤ a.toNat ∧ a.toNat ≤ 0x4013 := by
  unfold windowOf; repeat' split
  all_goals simp_all
  all_goals omega

theorem windowOf_unmapped_iff (a : Word) : windowOf a = .unmapped ↔ 0x4018 ≤ a.toNat ∧ a.toNat < 0x8000 := by
  unfold windowOf; repeat' split
  all_goals simp_all
  all_goals omega

theorem ramIndex_eq (a : Word) : ramIndex a = a.toNat % 2048 := by
  unfold ramIndex
  rw [BitVec.toNat_and]
  exact Nat.and_two_pow_sub_one_eq_mod a.toNat 11

theorem ramIndex_lt (a : Word) : ramIndex a < Config.ramBytes := by
  rw [ramIndex_eq]; exact Nat.mod_lt _ (by decide)

theorem prgIndex_lt (size : PrgSize) (a : Word) : prgIndex size a < Config.prgBytes size :=
  Nat.mod_lt _ (by cases size <;> decide)

@[simp] theorem windowOf_zeroPage (d : Byte) : windowOf (zext16 d) = .ram := by
  rw [windowOf_ram_iff, zext16_toNat]; omega

@[simp] theorem ramIndex_zeroPage (d : Byte) : ramIndex (zext16 d) = d.toNat := by
  rw [ramIndex_eq, zext16_toNat]; omega

/-! ## A byte of memory -/

theorem memByte_ram (s : State) (a : Word) (h : windowOf a = .ram) : s.memByte a = s.ram.read (ramIndex a) := by
  simp [State.memByte, h]

theorem memByte_prg (s : State) (a : Word) (h : windowOf a = .prg) :
    s.memByte a = s.params.prg.read (prgIndex s.params.prgSize a) := by
  simp [State.memByte, h]

/-- A byte of memory is a matter of the RAM and the parameters alone. -/
theorem memByte_congr (s t : State) (a : Word) (hr : t.ram = s.ram) (hp : t.params = s.params) :
    t.memByte a = s.memByte a := by
  simp [State.memByte, hr, hp]

/-- A byte of memory after a store to the RAM. -/
theorem memByte_of_ram_write (s t : State) (e a : Word) (v : Byte) (hr : t.ram = s.ram.write (ramIndex e) v)
    (hp : t.params = s.params) :
    t.memByte a = if windowOf a = .ram ∧ ramIndex a = ramIndex e then v else s.memByte a := by
  unfold State.memByte
  rw [hr, hp]
  split <;> simp_all [Memory.read_write]

/-- At an address of memory a read gives the byte held there and does nothing else. -/
theorem busRead_memory (a : Word) (s : State) (h : windowOf a = .ram ∨ windowOf a = .prg) :
    busRead a s = (s.memByte a, s) := by
  rcases h with h | h <;> simp [busRead, State.memByte, h]

theorem busWrite_ram (a : Word) (v : Byte) (s : State) (h : windowOf a = .ram) :
    busWrite a v s = s.setRam (s.ram.write (ramIndex a) v) := by
  simp [busWrite, h]

/-! ## What a read can touch -/

/-- A bus read can change the PPU, the APU, the count of joypad reads, and it can send events. -/
theorem busRead_touches (a : Word) (s : State) : ∃ u v n es,
    (busRead a s).2 = { s with ppu := u, apu := v, joypadReads := n, events := s.events ++ es } := by
  have keep : ∃ u v n es, s = { s with ppu := u, apu := v, joypadReads := n, events := s.events ++ es } :=
    ⟨s.ppu, s.apu, s.joypadReads, [], by simp⟩
  unfold busRead
  split
  · exact keep
  · unfold ppuRegRead
    split
    · exact ⟨s.ppu.statusRead.2, s.apu, s.joypadReads, [], by simp [State.setPpu]⟩
    · exact keep
    · exact ⟨(s.ppu.dataRead s.params).2, s.apu, s.joypadReads, [], by simp [State.setPpu]⟩
    · exact ⟨s.ppu, s.apu, s.joypadReads, [_], rfl⟩
  · exact ⟨s.ppu, s.apu, s.joypadReads, [_], rfl⟩
  · exact ⟨s.ppu, s.apu, s.joypadReads, [_], rfl⟩
  · exact ⟨s.ppu, s.apu.statusRead.2, s.joypadReads, [], by simp [State.setApu]⟩
  · exact ⟨s.ppu, s.apu, s.joypadReads + 1, [_], rfl⟩
  · exact keep
  · exact ⟨s.ppu, s.apu, s.joypadReads, [_], rfl⟩
  · exact keep

@[simp] theorem busRead_a (a : Word) (s : State) : ((busRead a s).2).a = s.a := by obtain ⟨_, _, _, _, h⟩ := busRead_touches a s; rw [h]
@[simp] theorem busRead_x (a : Word) (s : State) : ((busRead a s).2).x = s.x := by obtain ⟨_, _, _, _, h⟩ := busRead_touches a s; rw [h]
@[simp] theorem busRead_y (a : Word) (s : State) : ((busRead a s).2).y = s.y := by obtain ⟨_, _, _, _, h⟩ := busRead_touches a s; rw [h]
@[simp] theorem busRead_sp (a : Word) (s : State) : ((busRead a s).2).sp = s.sp := by obtain ⟨_, _, _, _, h⟩ := busRead_touches a s; rw [h]
@[simp] theorem busRead_p (a : Word) (s : State) : ((busRead a s).2).p = s.p := by obtain ⟨_, _, _, _, h⟩ := busRead_touches a s; rw [h]
@[simp] theorem busRead_pc (a : Word) (s : State) : ((busRead a s).2).pc = s.pc := by obtain ⟨_, _, _, _, h⟩ := busRead_touches a s; rw [h]
@[simp] theorem busRead_cyc (a : Word) (s : State) : ((busRead a s).2).cyc = s.cyc := by obtain ⟨_, _, _, _, h⟩ := busRead_touches a s; rw [h]
@[simp] theorem busRead_halted (a : Word) (s : State) : ((busRead a s).2).halted = s.halted := by obtain ⟨_, _, _, _, h⟩ := busRead_touches a s; rw [h]
@[simp] theorem busRead_fault (a : Word) (s : State) : ((busRead a s).2).fault = s.fault := by obtain ⟨_, _, _, _, h⟩ := busRead_touches a s; rw [h]
@[simp] theorem busRead_dmaStall (a : Word) (s : State) : ((busRead a s).2).dmaStall = s.dmaStall := by obtain ⟨_, _, _, _, h⟩ := busRead_touches a s; rw [h]
@[simp] theorem busRead_stepCycles (a : Word) (s : State) : ((busRead a s).2).stepCycles = s.stepCycles := by obtain ⟨_, _, _, _, h⟩ := busRead_touches a s; rw [h]
@[simp] theorem busRead_ram (a : Word) (s : State) : ((busRead a s).2).ram = s.ram := by obtain ⟨_, _, _, _, h⟩ := busRead_touches a s; rw [h]
@[simp] theorem busRead_nmiPrev (a : Word) (s : State) : ((busRead a s).2).nmiPrev = s.nmiPrev := by obtain ⟨_, _, _, _, h⟩ := busRead_touches a s; rw [h]
@[simp] theorem busRead_params (a : Word) (s : State) : ((busRead a s).2).params = s.params := by obtain ⟨_, _, _, _, h⟩ := busRead_touches a s; rw [h]
@[simp] theorem busRead_resetReq (a : Word) (s : State) : ((busRead a s).2).resetReq = s.resetReq := by obtain ⟨_, _, _, _, h⟩ := busRead_touches a s; rw [h]
@[simp] theorem busRead_stopReq (a : Word) (s : State) : ((busRead a s).2).stopReq = s.stopReq := by obtain ⟨_, _, _, _, h⟩ := busRead_touches a s; rw [h]

@[simp] theorem busRead_memByte (a e : Word) (s : State) : (busRead a s).2.memByte e = s.memByte e :=
  memByte_congr _ _ _ (by simp) (by simp)

/-! ## What OAM DMA and a write can touch -/

/-- One byte of an OAM DMA touches what a read touches. -/
theorem oamDmaByte_touches (page : Byte) (i : Nat) (s : State) : ∃ u v n es,
    oamDmaByte page i s = { s with ppu := u, apu := v, joypadReads := n, events := s.events ++ es } := by
  obtain ⟨u, v, n, es, h⟩ := busRead_touches (word page (BitVec.ofNat 8 i)) s
  exact ⟨u.oamDataWrite (busRead (word page (BitVec.ofNat 8 i)) s).1, v, n, es, by simp only [oamDmaByte, h, State.setPpu]⟩

/-- The copy of an OAM DMA touches what a read touches. -/
theorem oamDmaCopy_touches (page : Byte) (k : Nat) (s : State) : ∃ u v n es,
    oamDmaCopy page k s = { s with ppu := u, apu := v, joypadReads := n, events := s.events ++ es } := by
  induction k with
  | zero => exact ⟨s.ppu, s.apu, s.joypadReads, [], by simp [oamDmaCopy]⟩
  | succ k ih =>
    obtain ⟨u, v, n, es, h⟩ := ih
    obtain ⟨u', v', n', es', h'⟩ := oamDmaByte_touches page k (oamDmaCopy page k s)
    exact ⟨u', v', n', es ++ es', by rw [oamDmaCopy, h', h]; simp⟩

@[simp] theorem oamDmaCopy_a (page : Byte) (k : Nat) (s : State) : (oamDmaCopy page k s).a = s.a := by obtain ⟨_, _, _, _, h⟩ := oamDmaCopy_touches page k s; rw [h]
@[simp] theorem oamDmaCopy_x (page : Byte) (k : Nat) (s : State) : (oamDmaCopy page k s).x = s.x := by obtain ⟨_, _, _, _, h⟩ := oamDmaCopy_touches page k s; rw [h]
@[simp] theorem oamDmaCopy_y (page : Byte) (k : Nat) (s : State) : (oamDmaCopy page k s).y = s.y := by obtain ⟨_, _, _, _, h⟩ := oamDmaCopy_touches page k s; rw [h]
@[simp] theorem oamDmaCopy_sp (page : Byte) (k : Nat) (s : State) : (oamDmaCopy page k s).sp = s.sp := by obtain ⟨_, _, _, _, h⟩ := oamDmaCopy_touches page k s; rw [h]
@[simp] theorem oamDmaCopy_p (page : Byte) (k : Nat) (s : State) : (oamDmaCopy page k s).p = s.p := by obtain ⟨_, _, _, _, h⟩ := oamDmaCopy_touches page k s; rw [h]
@[simp] theorem oamDmaCopy_pc (page : Byte) (k : Nat) (s : State) : (oamDmaCopy page k s).pc = s.pc := by obtain ⟨_, _, _, _, h⟩ := oamDmaCopy_touches page k s; rw [h]
@[simp] theorem oamDmaCopy_cyc (page : Byte) (k : Nat) (s : State) : (oamDmaCopy page k s).cyc = s.cyc := by obtain ⟨_, _, _, _, h⟩ := oamDmaCopy_touches page k s; rw [h]
@[simp] theorem oamDmaCopy_halted (page : Byte) (k : Nat) (s : State) : (oamDmaCopy page k s).halted = s.halted := by obtain ⟨_, _, _, _, h⟩ := oamDmaCopy_touches page k s; rw [h]
@[simp] theorem oamDmaCopy_fault (page : Byte) (k : Nat) (s : State) : (oamDmaCopy page k s).fault = s.fault := by obtain ⟨_, _, _, _, h⟩ := oamDmaCopy_touches page k s; rw [h]
@[simp] theorem oamDmaCopy_dmaStall (page : Byte) (k : Nat) (s : State) : (oamDmaCopy page k s).dmaStall = s.dmaStall := by obtain ⟨_, _, _, _, h⟩ := oamDmaCopy_touches page k s; rw [h]
@[simp] theorem oamDmaCopy_stepCycles (page : Byte) (k : Nat) (s : State) : (oamDmaCopy page k s).stepCycles = s.stepCycles := by obtain ⟨_, _, _, _, h⟩ := oamDmaCopy_touches page k s; rw [h]
@[simp] theorem oamDmaCopy_ram (page : Byte) (k : Nat) (s : State) : (oamDmaCopy page k s).ram = s.ram := by obtain ⟨_, _, _, _, h⟩ := oamDmaCopy_touches page k s; rw [h]
@[simp] theorem oamDmaCopy_nmiPrev (page : Byte) (k : Nat) (s : State) : (oamDmaCopy page k s).nmiPrev = s.nmiPrev := by obtain ⟨_, _, _, _, h⟩ := oamDmaCopy_touches page k s; rw [h]
@[simp] theorem oamDmaCopy_params (page : Byte) (k : Nat) (s : State) : (oamDmaCopy page k s).params = s.params := by obtain ⟨_, _, _, _, h⟩ := oamDmaCopy_touches page k s; rw [h]
@[simp] theorem oamDmaCopy_resetReq (page : Byte) (k : Nat) (s : State) : (oamDmaCopy page k s).resetReq = s.resetReq := by obtain ⟨_, _, _, _, h⟩ := oamDmaCopy_touches page k s; rw [h]
@[simp] theorem oamDmaCopy_stopReq (page : Byte) (k : Nat) (s : State) : (oamDmaCopy page k s).stopReq = s.stopReq := by obtain ⟨_, _, _, _, h⟩ := oamDmaCopy_touches page k s; rw [h]

/-- A bus write can change the RAM, the PPU, the APU and the DMA stall, it can read the joypad (through a DMA), and it can send
events. -/
theorem busWrite_touches (a : Word) (b : Byte) (s : State) : ∃ m u v d n es,
    busWrite a b s =
      { s with ram := m, ppu := u, apu := v, dmaStall := d, joypadReads := n, events := s.events ++ es } := by
  unfold busWrite
  split
  · exact ⟨_, s.ppu, s.apu, s.dmaStall, s.joypadReads, [], by simp only [List.append_nil]; rfl⟩
  · unfold ppuRegWrite
    split
    case h_3 => exact ⟨s.ram, s.ppu, s.apu, s.dmaStall, s.joypadReads, [_], rfl⟩
    case h_8 =>
      unfold chrWriteDiag
      split
      · exact ⟨s.ram, _, s.apu, s.dmaStall, s.joypadReads, [_], rfl⟩
      · exact ⟨s.ram, _, s.apu, s.dmaStall, s.joypadReads, [], by simp only [List.append_nil]; rfl⟩
    all_goals exact ⟨s.ram, _, s.apu, s.dmaStall, s.joypadReads, [], by simp only [List.append_nil]; rfl⟩
  · exact ⟨s.ram, s.ppu, _, s.dmaStall, s.joypadReads, [], by simp only [List.append_nil]; rfl⟩
  · obtain ⟨u, v, n, es, h⟩ := oamDmaCopy_touches b 256 s
    exact ⟨s.ram, u, v, 513 + s.cyc % 2, n, es, by simp only [oamDma, h, State.setDmaStall]⟩
  · exact ⟨s.ram, s.ppu, _, s.dmaStall, s.joypadReads, [], by simp only [List.append_nil]; rfl⟩
  · exact ⟨s.ram, s.ppu, s.apu, s.dmaStall, s.joypadReads, [_], rfl⟩
  · exact ⟨s.ram, s.ppu, _, s.dmaStall, s.joypadReads, [], by simp only [List.append_nil]; rfl⟩
  · exact ⟨s.ram, s.ppu, s.apu, s.dmaStall, s.joypadReads, [_], rfl⟩
  · exact ⟨s.ram, s.ppu, s.apu, s.dmaStall, s.joypadReads, [_], rfl⟩

@[simp] theorem busWrite_a (a : Word) (b : Byte) (s : State) : (busWrite a b s).a = s.a := by obtain ⟨_, _, _, _, _, _, h⟩ := busWrite_touches a b s; rw [h]
@[simp] theorem busWrite_x (a : Word) (b : Byte) (s : State) : (busWrite a b s).x = s.x := by obtain ⟨_, _, _, _, _, _, h⟩ := busWrite_touches a b s; rw [h]
@[simp] theorem busWrite_y (a : Word) (b : Byte) (s : State) : (busWrite a b s).y = s.y := by obtain ⟨_, _, _, _, _, _, h⟩ := busWrite_touches a b s; rw [h]
@[simp] theorem busWrite_sp (a : Word) (b : Byte) (s : State) : (busWrite a b s).sp = s.sp := by obtain ⟨_, _, _, _, _, _, h⟩ := busWrite_touches a b s; rw [h]
@[simp] theorem busWrite_p (a : Word) (b : Byte) (s : State) : (busWrite a b s).p = s.p := by obtain ⟨_, _, _, _, _, _, h⟩ := busWrite_touches a b s; rw [h]
@[simp] theorem busWrite_pc (a : Word) (b : Byte) (s : State) : (busWrite a b s).pc = s.pc := by obtain ⟨_, _, _, _, _, _, h⟩ := busWrite_touches a b s; rw [h]
@[simp] theorem busWrite_cyc (a : Word) (b : Byte) (s : State) : (busWrite a b s).cyc = s.cyc := by obtain ⟨_, _, _, _, _, _, h⟩ := busWrite_touches a b s; rw [h]
@[simp] theorem busWrite_halted (a : Word) (b : Byte) (s : State) : (busWrite a b s).halted = s.halted := by obtain ⟨_, _, _, _, _, _, h⟩ := busWrite_touches a b s; rw [h]
@[simp] theorem busWrite_fault (a : Word) (b : Byte) (s : State) : (busWrite a b s).fault = s.fault := by obtain ⟨_, _, _, _, _, _, h⟩ := busWrite_touches a b s; rw [h]
@[simp] theorem busWrite_stepCycles (a : Word) (b : Byte) (s : State) : (busWrite a b s).stepCycles = s.stepCycles := by obtain ⟨_, _, _, _, _, _, h⟩ := busWrite_touches a b s; rw [h]
@[simp] theorem busWrite_nmiPrev (a : Word) (b : Byte) (s : State) : (busWrite a b s).nmiPrev = s.nmiPrev := by obtain ⟨_, _, _, _, _, _, h⟩ := busWrite_touches a b s; rw [h]
@[simp] theorem busWrite_params (a : Word) (b : Byte) (s : State) : (busWrite a b s).params = s.params := by obtain ⟨_, _, _, _, _, _, h⟩ := busWrite_touches a b s; rw [h]
@[simp] theorem busWrite_resetReq (a : Word) (b : Byte) (s : State) : (busWrite a b s).resetReq = s.resetReq := by obtain ⟨_, _, _, _, _, _, h⟩ := busWrite_touches a b s; rw [h]
@[simp] theorem busWrite_stopReq (a : Word) (b : Byte) (s : State) : (busWrite a b s).stopReq = s.stopReq := by obtain ⟨_, _, _, _, _, _, h⟩ := busWrite_touches a b s; rw [h]

/-- Only a write to the RAM window changes the RAM. -/
theorem busWrite_ram_of_not (a : Word) (b : Byte) (s : State) (h : windowOf a ≠ .ram) : (busWrite a b s).ram = s.ram := by
  unfold busWrite ppuRegWrite chrWriteDiag oamDma
  split
  · contradiction
  · split <;> (try split) <;> rfl
  all_goals simp

/-- A byte of memory after any bus write. -/
theorem busWrite_memByte (a e : Word) (b : Byte) (s : State) :
    (busWrite a b s).memByte e =
      if windowOf a = .ram ∧ windowOf e = .ram ∧ ramIndex e = ramIndex a then b else s.memByte e := by
  by_cases h : windowOf a = .ram
  · rw [busWrite_ram a b s h, memByte_of_ram_write s _ a e b (State.setRam_ram _ _) (State.setRam_params _ _)]; simp [h]
  · rw [memByte_congr s _ e (busWrite_ram_of_not a b s h) (by simp)]; simp [h]

/-- Outside the OAM DMA register a write leaves the stall alone. -/
theorem busWrite_dmaStall_of_not (a : Word) (b : Byte) (s : State) (h : windowOf a ≠ .oamDma) :
    (busWrite a b s).dmaStall = s.dmaStall := by
  unfold busWrite ppuRegWrite chrWriteDiag
  split
  case h_2 => split <;> (try split) <;> rfl
  case h_4 => contradiction
  all_goals rfl

/-! ## The tick driver -/

@[simp] theorem tickCycles_a (n : Nat) (s : State) : (tickCycles n s).a = s.a := by induction n <;> simp_all [tickCycles, tickCycle]
@[simp] theorem tickCycles_x (n : Nat) (s : State) : (tickCycles n s).x = s.x := by induction n <;> simp_all [tickCycles, tickCycle]
@[simp] theorem tickCycles_y (n : Nat) (s : State) : (tickCycles n s).y = s.y := by induction n <;> simp_all [tickCycles, tickCycle]
@[simp] theorem tickCycles_sp (n : Nat) (s : State) : (tickCycles n s).sp = s.sp := by induction n <;> simp_all [tickCycles, tickCycle]
@[simp] theorem tickCycles_p (n : Nat) (s : State) : (tickCycles n s).p = s.p := by induction n <;> simp_all [tickCycles, tickCycle]
@[simp] theorem tickCycles_pc (n : Nat) (s : State) : (tickCycles n s).pc = s.pc := by induction n <;> simp_all [tickCycles, tickCycle]
@[simp] theorem tickCycles_cyc (n : Nat) (s : State) : (tickCycles n s).cyc = s.cyc := by induction n <;> simp_all [tickCycles, tickCycle]
@[simp] theorem tickCycles_halted (n : Nat) (s : State) : (tickCycles n s).halted = s.halted := by induction n <;> simp_all [tickCycles, tickCycle]
@[simp] theorem tickCycles_fault (n : Nat) (s : State) : (tickCycles n s).fault = s.fault := by induction n <;> simp_all [tickCycles, tickCycle]
@[simp] theorem tickCycles_dmaStall (n : Nat) (s : State) : (tickCycles n s).dmaStall = s.dmaStall := by induction n <;> simp_all [tickCycles, tickCycle]
@[simp] theorem tickCycles_stepCycles (n : Nat) (s : State) : (tickCycles n s).stepCycles = s.stepCycles := by induction n <;> simp_all [tickCycles, tickCycle]
@[simp] theorem tickCycles_ram (n : Nat) (s : State) : (tickCycles n s).ram = s.ram := by induction n <;> simp_all [tickCycles, tickCycle]
@[simp] theorem tickCycles_nmiPrev (n : Nat) (s : State) : (tickCycles n s).nmiPrev = s.nmiPrev := by induction n <;> simp_all [tickCycles, tickCycle]
@[simp] theorem tickCycles_params (n : Nat) (s : State) : (tickCycles n s).params = s.params := by induction n <;> simp_all [tickCycles, tickCycle]
@[simp] theorem tickCycles_resetReq (n : Nat) (s : State) : (tickCycles n s).resetReq = s.resetReq := by induction n <;> simp_all [tickCycles, tickCycle]
@[simp] theorem tickCycles_stopReq (n : Nat) (s : State) : (tickCycles n s).stopReq = s.stopReq := by induction n <;> simp_all [tickCycles, tickCycle]
@[simp] theorem tickCycles_joypadReads (n : Nat) (s : State) : (tickCycles n s).joypadReads = s.joypadReads := by induction n <;> simp_all [tickCycles, tickCycle]
@[simp] theorem tickCycles_events (n : Nat) (s : State) : (tickCycles n s).events = s.events := by induction n <;> simp_all [tickCycles, tickCycle]

@[simp] theorem edgeSample_a (s : State) : (edgeSample s).a = s.a := rfl
@[simp] theorem edgeSample_x (s : State) : (edgeSample s).x = s.x := rfl
@[simp] theorem edgeSample_y (s : State) : (edgeSample s).y = s.y := rfl
@[simp] theorem edgeSample_sp (s : State) : (edgeSample s).sp = s.sp := rfl
@[simp] theorem edgeSample_p (s : State) : (edgeSample s).p = s.p := rfl
@[simp] theorem edgeSample_pc (s : State) : (edgeSample s).pc = s.pc := rfl
@[simp] theorem edgeSample_cyc (s : State) : (edgeSample s).cyc = s.cyc := rfl
@[simp] theorem edgeSample_halted (s : State) : (edgeSample s).halted = s.halted := rfl
@[simp] theorem edgeSample_fault (s : State) : (edgeSample s).fault = s.fault := rfl
@[simp] theorem edgeSample_dmaStall (s : State) : (edgeSample s).dmaStall = s.dmaStall := rfl
@[simp] theorem edgeSample_stepCycles (s : State) : (edgeSample s).stepCycles = s.stepCycles := rfl
@[simp] theorem edgeSample_ram (s : State) : (edgeSample s).ram = s.ram := rfl
@[simp] theorem edgeSample_apu (s : State) : (edgeSample s).apu = s.apu := rfl
@[simp] theorem edgeSample_params (s : State) : (edgeSample s).params = s.params := rfl
@[simp] theorem edgeSample_resetReq (s : State) : (edgeSample s).resetReq = s.resetReq := rfl
@[simp] theorem edgeSample_stopReq (s : State) : (edgeSample s).stopReq = s.stopReq := rfl
@[simp] theorem edgeSample_joypadReads (s : State) : (edgeSample s).joypadReads = s.joypadReads := rfl
@[simp] theorem edgeSample_events (s : State) : (edgeSample s).events = s.events := rfl

@[simp] theorem notifyFrame_a (s : State) : (notifyFrame s).a = s.a := by unfold notifyFrame; split <;> rfl
@[simp] theorem notifyFrame_x (s : State) : (notifyFrame s).x = s.x := by unfold notifyFrame; split <;> rfl
@[simp] theorem notifyFrame_y (s : State) : (notifyFrame s).y = s.y := by unfold notifyFrame; split <;> rfl
@[simp] theorem notifyFrame_sp (s : State) : (notifyFrame s).sp = s.sp := by unfold notifyFrame; split <;> rfl
@[simp] theorem notifyFrame_p (s : State) : (notifyFrame s).p = s.p := by unfold notifyFrame; split <;> rfl
@[simp] theorem notifyFrame_pc (s : State) : (notifyFrame s).pc = s.pc := by unfold notifyFrame; split <;> rfl
@[simp] theorem notifyFrame_cyc (s : State) : (notifyFrame s).cyc = s.cyc := by unfold notifyFrame; split <;> rfl
@[simp] theorem notifyFrame_halted (s : State) : (notifyFrame s).halted = s.halted := by unfold notifyFrame; split <;> rfl
@[simp] theorem notifyFrame_fault (s : State) : (notifyFrame s).fault = s.fault := by unfold notifyFrame; split <;> rfl
@[simp] theorem notifyFrame_dmaStall (s : State) : (notifyFrame s).dmaStall = s.dmaStall := by unfold notifyFrame; split <;> rfl
@[simp] theorem notifyFrame_stepCycles (s : State) : (notifyFrame s).stepCycles = s.stepCycles := by unfold notifyFrame; split <;> rfl
@[simp] theorem notifyFrame_ram (s : State) : (notifyFrame s).ram = s.ram := by unfold notifyFrame; split <;> rfl
@[simp] theorem notifyFrame_nmiPrev (s : State) : (notifyFrame s).nmiPrev = s.nmiPrev := by unfold notifyFrame; split <;> rfl
@[simp] theorem notifyFrame_ppu (s : State) : (notifyFrame s).ppu = s.ppu := by unfold notifyFrame; split <;> rfl
@[simp] theorem notifyFrame_apu (s : State) : (notifyFrame s).apu = s.apu := by unfold notifyFrame; split <;> rfl
@[simp] theorem notifyFrame_params (s : State) : (notifyFrame s).params = s.params := by unfold notifyFrame; split <;> rfl
@[simp] theorem notifyFrame_resetReq (s : State) : (notifyFrame s).resetReq = s.resetReq := by unfold notifyFrame; split <;> rfl
@[simp] theorem notifyFrame_stopReq (s : State) : (notifyFrame s).stopReq = s.stopReq := by unfold notifyFrame; split <;> rfl
@[simp] theorem notifyFrame_joypadReads (s : State) : (notifyFrame s).joypadReads = s.joypadReads := by unfold notifyFrame; split <;> rfl

theorem tickCycles_ppu (n : Nat) (s : State) : (tickCycles n s).ppu = Ppu.dots (3 * n) s.ppu := by
  induction n with
  | zero => rfl
  | succ n ih => simp [tickCycles, tickCycle, ih, Nat.mul_succ, Ppu.dots]

theorem tickCycles_apu (n : Nat) (s : State) : (tickCycles n s).apu = Apu.ticks n s.apu := by
  induction n with
  | zero => rfl
  | succ n ih => simp [tickCycles, tickCycle, ih, Apu.ticks]

/-- A batch of `n` cycles is `3 n` dots from a PPU with `frame_complete` false (R120, R315). -/
@[simp] theorem tickBatch_ppu (n : Nat) (s : State) :
    (tickBatch n s).ppu = Ppu.dots (3 * n) { s.ppu with frameComplete := false } := by
  simp [tickBatch, tickCycles_ppu, edgeSample]

/-- A batch of `n` cycles is `n` APU ticks (R120). -/
@[simp] theorem tickBatch_apu (n : Nat) (s : State) : (tickBatch n s).apu = Apu.ticks n s.apu := by
  simp [tickBatch, tickCycles_apu]

/-- A batch of `n` cycles counts them (R31). -/
@[simp] theorem tickBatch_cyc (n : Nat) (s : State) : (tickBatch n s).cyc = s.cyc + n := by
  simp [tickBatch, edgeSample]

/-- A batch starts by sampling the NMI request (R321). -/
@[simp] theorem tickBatch_nmiPrev (n : Nat) (s : State) : (tickBatch n s).nmiPrev = s.ppu.nmiPending := by
  simp [tickBatch, edgeSample]

/-- A batch calls `FrameReady` exactly where the request rose across it (R322). -/
theorem tickBatch_events (n : Nat) (s : State) :
    (tickBatch n s).events =
      s.events ++ (if s.ppu.nmiPending = false ∧ (tickBatch n s).ppu.nmiPending = true then [.frameReady] else []) := by
  have he : (edgeSample s).nmiPrev = s.ppu.nmiPending := rfl
  have hp : (edgeSample s).ppu = { s.ppu with frameComplete := false } := rfl
  simp only [tickBatch, notifyFrame, edgeCompare, State.setCyc_nmiPrev, State.setCyc_ppu, tickCycles_nmiPrev, he,
    tickCycles_ppu, hp, Bool.and_eq_true, Bool.not_eq_true']
  by_cases h : s.ppu.nmiPending = false ∧
    (Ppu.dots (3 * n) { s.ppu with frameComplete := false }).nmiPending = true
  · simp only [if_pos h]; simpa [tickCycles_ppu, hp, h.2] using h.1
  · simp only [if_neg h]; simp [tickCycles_ppu, hp]; exact fun h' => by simpa [h'] using h

@[simp] theorem tickBatch_a (n : Nat) (s : State) : (tickBatch n s).a = s.a := by simp [tickBatch]
@[simp] theorem tickBatch_x (n : Nat) (s : State) : (tickBatch n s).x = s.x := by simp [tickBatch]
@[simp] theorem tickBatch_y (n : Nat) (s : State) : (tickBatch n s).y = s.y := by simp [tickBatch]
@[simp] theorem tickBatch_sp (n : Nat) (s : State) : (tickBatch n s).sp = s.sp := by simp [tickBatch]
@[simp] theorem tickBatch_p (n : Nat) (s : State) : (tickBatch n s).p = s.p := by simp [tickBatch]
@[simp] theorem tickBatch_pc (n : Nat) (s : State) : (tickBatch n s).pc = s.pc := by simp [tickBatch]
@[simp] theorem tickBatch_halted (n : Nat) (s : State) : (tickBatch n s).halted = s.halted := by simp [tickBatch]
@[simp] theorem tickBatch_fault (n : Nat) (s : State) : (tickBatch n s).fault = s.fault := by simp [tickBatch]
@[simp] theorem tickBatch_dmaStall (n : Nat) (s : State) : (tickBatch n s).dmaStall = s.dmaStall := by simp [tickBatch]
@[simp] theorem tickBatch_stepCycles (n : Nat) (s : State) : (tickBatch n s).stepCycles = s.stepCycles := by simp [tickBatch]
@[simp] theorem tickBatch_ram (n : Nat) (s : State) : (tickBatch n s).ram = s.ram := by simp [tickBatch]
@[simp] theorem tickBatch_params (n : Nat) (s : State) : (tickBatch n s).params = s.params := by simp [tickBatch]
@[simp] theorem tickBatch_resetReq (n : Nat) (s : State) : (tickBatch n s).resetReq = s.resetReq := by simp [tickBatch]
@[simp] theorem tickBatch_stopReq (n : Nat) (s : State) : (tickBatch n s).stopReq = s.stopReq := by simp [tickBatch]
@[simp] theorem tickBatch_joypadReads (n : Nat) (s : State) : (tickBatch n s).joypadReads = s.joypadReads := by simp [tickBatch]

/-- A tick batch as one update of the state: the rest of the machine is left alone. -/
theorem tickBatch_eq (n : Nat) (s : State) :
    tickBatch n s =
      { s with
        nmiPrev := s.ppu.nmiPending, ppu := Ppu.dots (3 * n) { s.ppu with frameComplete := false }
        apu := Apu.ticks n s.apu, cyc := s.cyc + n, events := (tickBatch n s).events } := by
  rw [← tickBatch_ppu, ← tickBatch_apu, ← tickBatch_cyc, ← tickBatch_nmiPrev n s]
  have ha := tickBatch_a n s
  have hx := tickBatch_x n s
  have hy := tickBatch_y n s
  have hsp := tickBatch_sp n s
  have hp := tickBatch_p n s
  have hpc := tickBatch_pc n s
  have hh := tickBatch_halted n s
  have hf := tickBatch_fault n s
  have hd := tickBatch_dmaStall n s
  have hc := tickBatch_stepCycles n s
  have hr := tickBatch_ram n s
  have hpa := tickBatch_params n s
  have hrr := tickBatch_resetReq n s
  have hsr := tickBatch_stopReq n s
  have hj := tickBatch_joypadReads n s
  generalize tickBatch n s = t at *
  cases t
  simp_all

@[simp] theorem tickBatch_memByte (n : Nat) (s : State) (a : Word) : (tickBatch n s).memByte a = s.memByte a :=
  memByte_congr _ _ _ (by simp) (by simp)

end Sys2Proof.Machine
end

