-- ==== Sys2Proof/Laws/Flags.lean ====
section
/-! SUPPORT. The status register bit by bit: what each flag write, each pushed copy and each load of the status leaves. -/

namespace Sys2Proof.Machine

@[simp] theorem pos_c : Flag.pos .c = 0 := rfl
@[simp] theorem pos_z : Flag.pos .z = 1 := rfl
@[simp] theorem pos_i : Flag.pos .i = 2 := rfl
@[simp] theorem pos_d : Flag.pos .d = 3 := rfl
@[simp] theorem pos_b : Flag.pos .b = 4 := rfl
@[simp] theorem pos_u : Flag.pos .u = 5 := rfl
@[simp] theorem pos_v : Flag.pos .v = 6 := rfl
@[simp] theorem pos_n : Flag.pos .n = 7 := rfl

theorem pos_lt (f : Flag) : f.pos < 8 := by cases f <;> decide

theorem pos_inj (f g : Flag) : f.pos = g.pos ↔ f = g := by cases f <;> cases g <;> decide

/-- Two status bytes with the same eight bits are the same. -/
theorem status_ext (p q : Byte) (h : ∀ f : Flag, getFlag p f = getFlag q f) : p = q := by
  apply BitVec.eq_of_getLsbD_eq
  intro k hk
  obtain ⟨f, rfl⟩ : ∃ f : Flag, f.pos = k := by
    match k, hk with
    | 0, _ => exact ⟨.c, rfl⟩
    | 1, _ => exact ⟨.z, rfl⟩
    | 2, _ => exact ⟨.i, rfl⟩
    | 3, _ => exact ⟨.d, rfl⟩
    | 4, _ => exact ⟨.b, rfl⟩
    | 5, _ => exact ⟨.u, rfl⟩
    | 6, _ => exact ⟨.v, rfl⟩
    | 7, _ => exact ⟨.n, rfl⟩
  exact h f

/-- Writing a flag writes its bit and no other. -/
theorem getLsbD_setFlag (p : Byte) (f : Flag) (v : Bool) (k : Nat) (hk : k < 8) :
    (setFlag p f v).getLsbD k = if k = f.pos then v else p.getLsbD k := by
  have hf := pos_lt f
  unfold setFlag
  cases v
  · simp only [Bool.false_eq_true, if_false, BitVec.getLsbD_and, BitVec.getLsbD_not, BitVec.getLsbD_shiftLeft,
      BitVec.getLsbD_one]
    by_cases h : k = f.pos
    · simp [h, hf]
    · by_cases h' : k < f.pos
      · simp [h, h', hk]
      · simp [h, h', hk, show k - f.pos ≠ 0 by omega]
  · simp only [if_true, BitVec.getLsbD_or, BitVec.getLsbD_shiftLeft, BitVec.getLsbD_one]
    by_cases h : k = f.pos
    · simp [h, hf]
    · by_cases h' : k < f.pos
      · simp [h, h', hk]
      · simp [h, h', hk, show k - f.pos ≠ 0 by omega]

@[simp] theorem getFlag_setFlag (p : Byte) (f g : Flag) (v : Bool) :
    getFlag (setFlag p f v) g = if g = f then v else getFlag p g := by
  simp only [getFlag, getLsbD_setFlag p f v g.pos (pos_lt g), pos_inj]

@[simp] theorem getFlag_setZN (v p : Byte) (g : Flag) :
    getFlag (setZN v p) g = if g = .n then v.getLsbD 7 else if g = .z then v == 0 else getFlag p g := by
  simp [setZN]

/-- PHP's and BRK's copy: B and U set, the rest as in `P` (R28). -/
theorem getFlag_pushedByInstruction (p : Byte) (g : Flag) :
    getFlag (pushedByInstruction p) g = if g = .b ∨ g = .u then true else getFlag p g := by
  cases g <;> simp [pushedByInstruction, getFlag]

/-- The interrupts' copy: B clear, U set, the rest as in `P` (R28). -/
theorem getFlag_pushedByInterrupt (p : Byte) (g : Flag) :
    getFlag (pushedByInterrupt p) g = if g = .b then false else if g = .u then true else getFlag p g := by
  cases g <;> simp [pushedByInterrupt, getFlag]

/-- A loaded status: B clear, U set, the rest from the byte (R28). -/
@[simp] theorem getFlag_loadedStatus (m : Byte) (g : Flag) :
    getFlag (loadedStatus m) g = if g = .b then false else if g = .u then true else getFlag m g := by
  cases g <;> simp [loadedStatus, getFlag]

end Sys2Proof.Machine
end

