-- ==== Sys2Proof/Laws/Ops.lean ====
section
/-! SUPPORT. What the shared operations do: the stack, pointers in the zero page, entering a handler and returning from one. -/

namespace Sys2Proof.Machine

/-! ## The stack page -/

@[simp] theorem stackAddr_toNat (sp : Byte) : (stackAddr sp).toNat = 256 + sp.toNat := by
  unfold stackAddr Config.stackBase
  rw [BitVec.toNat_add, zext16_toNat]
  have := sp.isLt
  simp
  omega

@[simp] theorem windowOf_stackAddr (sp : Byte) : windowOf (stackAddr sp) = .ram := by
  rw [windowOf_ram_iff, stackAddr_toNat]
  have := sp.isLt
  omega

@[simp] theorem ramIndex_stackAddr (sp : Byte) : ramIndex (stackAddr sp) = 256 + sp.toNat := by
  rw [ramIndex_eq, stackAddr_toNat]
  have := sp.isLt
  omega

theorem stackAddr_inj (p q : Byte) : stackAddr p = stackAddr q ↔ p = q := by
  constructor
  · intro h
    have := congrArg BitVec.toNat h
    simp only [stackAddr_toNat] at this
    exact BitVec.eq_of_toNat_eq (by omega)
  · rintro rfl; rfl

/-- A push stores one byte in the stack page and moves the stack pointer (R13, R21). -/
theorem push_eq (v : Byte) (s : State) :
    push v s = (s.setRam (s.ram.write (256 + s.sp.toNat) v)).setSP (s.sp - 1) := by
  simp [push, busWrite_ram]

/-- A pop moves the stack pointer and reads one byte of the stack page (R13, R21). -/
theorem pop_eq (s : State) : pop s = (s.ram.read (256 + (s.sp + 1).toNat), s.setSP (s.sp + 1)) := by
  simp only [pop]
  rw [busRead_memory _ _ (.inl (windowOf_stackAddr _)), memByte_ram _ _ (windowOf_stackAddr _)]
  simp

/-- A 16-bit push stores the high byte, then the low byte below it (R82). -/
theorem push16_eq (w : Word) (s : State) :
    push16 w s =
      (s.setRam ((s.ram.write (256 + s.sp.toNat) (hiByte w)).write (256 + (s.sp - 1).toNat) (loByte w))).setSP
        (s.sp - 2) := by
  simp [push16, push_eq, State.setRam, State.setSP, sub_one_sub_one]

/-- A 16-bit pop reads the low byte, then the high byte above it (R82). -/
theorem pop16_eq (s : State) :
    pop16 s =
      (word (s.ram.read (256 + (s.sp + 2).toNat)) (s.ram.read (256 + (s.sp + 1).toNat)), s.setSP (s.sp + 2)) := by
  simp [pop16, pop_eq, State.setSP, add_one_add_one]

/-! ## Pointers -/

/-- A pointer in the zero page is read from the RAM with no side effect (R13). -/
theorem readZP16_eq (p : Byte) (s : State) :
    readZP16 p s = (word (s.ram.read (p + 1).toNat) (s.ram.read p.toNat), s) := by
  simp only [readZP16]
  rw [busRead_memory _ _ (.inl (windowOf_zeroPage p)), memByte_ram _ _ (windowOf_zeroPage p)]
  rw [busRead_memory _ _ (.inl (windowOf_zeroPage (p + 1))), memByte_ram _ _ (windowOf_zeroPage (p + 1))]
  simp

/-- A word whose two bytes lie in program ROM is read with no side effect. -/
theorem read16_prg (a : Word) (s : State) (h0 : windowOf a = .prg) (h1 : windowOf (a + 1) = .prg) :
    read16 a s = (word (s.memByte (a + 1)) (s.memByte a), s) := by
  simp only [read16]
  rw [busRead_memory _ _ (.inr h0), busRead_memory _ _ (.inr h1)]

/-- The three vectors lie in program ROM (R87). -/
theorem read16_nmi (s : State) : read16 Config.vecNmi s = (word (s.memByte 0xFFFB) (s.memByte 0xFFFA), s) :=
  read16_prg _ _ rfl rfl

theorem read16_reset (s : State) : read16 Config.vecReset s = (word (s.memByte 0xFFFD) (s.memByte 0xFFFC), s) :=
  read16_prg _ _ rfl rfl

theorem read16_irq (s : State) : read16 Config.vecIrq s = (word (s.memByte 0xFFFF) (s.memByte 0xFFFE), s) :=
  read16_prg _ _ rfl rfl

/-! ## Handlers -/

/-- Entering a handler: three stores in the stack page, the stack pointer, `I`, and `PC` from a vector in program ROM (R407). -/
theorem enterHandler_eq (ret : Word) (status : Byte) (vector : Word) (s : State)
    (h0 : windowOf vector = .prg) (h1 : windowOf (vector + 1) = .prg) :
    enterHandler ret status vector s =
      { s with
        ram := ((s.ram.write (256 + s.sp.toNat) (hiByte ret)).write (256 + (s.sp - 1).toNat) (loByte ret)).write
          (256 + (s.sp - 2).toNat) status
        sp := s.sp - 3
        p := setFlag s.p .i true
        pc := word (s.memByte (vector + 1)) (s.memByte vector) } := by
  simp only [enterHandler, push16_eq, push_eq, read16_prg vector _ h0 h1, memByte_prg _ _ h0, memByte_prg _ _ h1]
  simp [State.setRam, State.setSP, State.setP, State.setPC, sub_two_sub_one]

/-- Returning from a handler: three reads of the stack page, the stack pointer, the status and `PC` (R421). -/
theorem returnFromInterrupt_eq (s : State) :
    returnFromInterrupt s =
      { s with
        sp := s.sp + 3
        p := loadedStatus (s.ram.read (256 + (s.sp + 1).toNat))
        pc := word (s.ram.read (256 + (s.sp + 3).toNat)) (s.ram.read (256 + (s.sp + 2).toNat)) } := by
  simp [returnFromInterrupt, pop_eq, pop16_eq, State.setSP, State.setP, State.setPC, add_one_add_one, add_one_add_two]

/-- The interrupt entry of R415. -/
theorem interruptEntry_eq (k : Interrupt) (s : State) :
    interruptEntry k s =
      { s with
        ram := ((s.ram.write (256 + s.sp.toNat) (hiByte s.pc)).write (256 + (s.sp - 1).toNat) (loByte s.pc)).write
          (256 + (s.sp - 2).toNat) (pushedByInterrupt s.p)
        sp := s.sp - 3
        p := setFlag s.p .i true
        pc := word (s.memByte (k.vector + 1)) (s.memByte k.vector)
        ppu := { s.ppu with nmiPending := s.ppu.nmiPending && decide (k = .irq) } } := by
  cases k
  · rw [interruptEntry, enterHandler_eq _ _ _ _ rfl rfl]
    simp [acknowledge, State.setPpu, State.memByte]
  · rw [interruptEntry, enterHandler_eq _ _ _ _ rfl rfl]
    simp [acknowledge]

/-- The reset sequence of R440: the registers, and `PC` from the reset vector. -/
theorem resetSequence_eq (s : State) :
    resetSequence s = (resetRegisters s).setPC (word (s.memByte 0xFFFD) (s.memByte 0xFFFC)) := by
  simp only [resetSequence, read16_reset]
  rfl

end Sys2Proof.Machine
end

