-- ==== Sys2Proof/Laws/Exec.lean ====
section
/-! SUPPORT. `exec` by mnemonic: one equation for all instructions, whose operands and costs come from the instruction's row and
mode. A proof about a mnemonic rewrites with it and needs no case split over the constructors. -/

namespace Sys2Proof.Machine

/-- The row of an instruction in its mnemonic's encoding table. -/
def rowFor (i : Instr) : Row :=
  ((rowsOf i.mnemonic).find? (fun r => r.opcode == opcodeOf i)).getD ⟨0, .implied, 0, 0, false⟩

/-- The page penalty an instruction pays (R466). -/
def penaltyOf (i : Instr) (s : State) : Nat := if (rowFor i).penalty then pagePenalty (operandOf i s).1 else 0

/-- A read instruction: its operand, then the effect. -/
def readBy (i : Instr) (s : State) (effect : Byte → State → State) : Result :=
  advance (rowFor i).length ((rowFor i).cycles + penaltyOf i s) (effect (sourceOf i s).1 (sourceOf i s).2)

/-- A store of `v`. -/
def storeBy (i : Instr) (s : State) (v : Byte) : Result :=
  advance (rowFor i).length (rowFor i).cycles (busWrite (eaOf i s) v (operandOf i s).2)

/-- A read-modify-write, on memory or on the accumulator. -/
def modifyBy (i : Instr) (s : State) (op : Byte → Byte → Byte × Byte) : Result :=
  match i.mode with
  | .accumulator => advance (rowFor i).length (rowFor i).cycles (setAP (op s.a s.p) s)
  | _ =>
    let m := sourceOf i s
    let r := op m.1 m.2.p
    advance (rowFor i).length (rowFor i).cycles ((busWrite (eaOf i s) r.1 m.2).setP r.2)

/-- An instruction of one byte that works on registers, flags and the stack. -/
def impliedBy (i : Instr) (t : State) : Result := advance (rowFor i).length (rowFor i).cycles t

/-- `exec`, by mnemonic. -/
def execByMnemonic (i : Instr) (s : State) : Result :=
  match i.mnemonic with
  | .lda => readBy i s loadA
  | .ldx => readBy i s loadX
  | .ldy => readBy i s loadY
  | .sta => storeBy i s s.a
  | .stx => storeBy i s s.x
  | .sty => storeBy i s s.y
  | .tax => impliedBy i (loadX s.a s)
  | .tay => impliedBy i (loadY s.a s)
  | .txa => impliedBy i (loadA s.x s)
  | .tya => impliedBy i (loadA s.y s)
  | .tsx => impliedBy i (loadX s.sp s)
  | .txs => impliedBy i (s.setSP s.x)
  | .adc => readBy i s addA
  | .sbc => readBy i s subA
  | .and => readBy i s andA
  | .ora => readBy i s orA
  | .eor => readBy i s eorA
  | .cmp => readBy i s compareA
  | .cpx => readBy i s compareX
  | .cpy => readBy i s compareY
  | .bit => readBy i s testA
  | .inc => modifyBy i s incOp
  | .dec => modifyBy i s decOp
  | .inx => impliedBy i (loadX (s.x + 1) s)
  | .iny => impliedBy i (loadY (s.y + 1) s)
  | .dex => impliedBy i (loadX (s.x - 1) s)
  | .dey => impliedBy i (loadY (s.y - 1) s)
  | .asl => modifyBy i s aslOp
  | .lsr => modifyBy i s lsrOp
  | .rol => modifyBy i s rolOp
  | .ror => modifyBy i s rorOp
  | .jmp => complete (rowFor i).cycles ((operandOf i s).2.setPC (eaOf i s))
  | .jsr => complete (rowFor i).cycles ((push16 (s.pc + 2) s).setPC (operandWord i))
  | .rts => complete (rowFor i).cycles ((pop16 s).2.setPC ((pop16 s).1 + 1))
  | .rti => complete (rowFor i).cycles (returnFromInterrupt s)
  | .brk => execBrk s
  | .nop => impliedBy i s
  | .bcc => branch (!getFlag s.p .c) (operandByte i) s
  | .bcs => branch (getFlag s.p .c) (operandByte i) s
  | .beq => branch (getFlag s.p .z) (operandByte i) s
  | .bne => branch (!getFlag s.p .z) (operandByte i) s
  | .bmi => branch (getFlag s.p .n) (operandByte i) s
  | .bpl => branch (!getFlag s.p .n) (operandByte i) s
  | .bvc => branch (!getFlag s.p .v) (operandByte i) s
  | .bvs => branch (getFlag s.p .v) (operandByte i) s
  | .pha => impliedBy i (push s.a s)
  | .php => impliedBy i (push (pushedByInstruction s.p) s)
  | .plp => impliedBy i ((pop s).2.setP (loadedStatus (pop s).1))
  | .pla => impliedBy i (loadA (pop s).1 (pop s).2)
  | .clc => impliedBy i (s.setP (setFlag s.p .c false))
  | .sec => impliedBy i (s.setP (setFlag s.p .c true))
  | .cli => impliedBy i (s.setP (setFlag s.p .i false))
  | .sei => impliedBy i (s.setP (setFlag s.p .i true))
  | .cld => impliedBy i (s.setP (setFlag s.p .d false))
  | .sed => impliedBy i (s.setP (setFlag s.p .d true))
  | .clv => impliedBy i (s.setP (setFlag s.p .v false))

/-- `exec` is `execByMnemonic`. -/
theorem exec_eq (i : Instr) (s : State) : exec i s = execByMnemonic i s := by
  cases i
  all_goals
    (simp only [execByMnemonic, Instr.mnemonic, readBy, storeBy, modifyBy, penaltyOf, sourceOf, eaOf, operandOf, Instr.mode,
       operandWord, encode, List.getD_cons_zero, List.getD_cons_succ, word_of_bytes]
     rfl)

end Sys2Proof.Machine
end

