-- ==== Sys2Proof/Laws/Effects.lean ====
section
/-! SUPPORT. What bus accesses, interrupt entries and instructions leave alone in the devices, and what they keep: the position of
the scanline timer, the parity of the APU, the parameters and the requests, the canonical memories, the frame counter's range. -/

namespace Sys2Proof.Machine

/-- `t` comes from `s` by bus accesses and register writes alone: no device time has passed. -/
structure Untimed (s t : State) : Prop where
  scanline : t.ppu.scanline = s.ppu.scanline
  cycle : t.ppu.cycle = s.ppu.cycle
  frameComplete : t.ppu.frameComplete = s.ppu.frameComplete
  apuOdd : t.apu.apuOdd = s.apu.apuOdd
  cyc : t.cyc = s.cyc
  nmiPrev : t.nmiPrev = s.nmiPrev
  params : t.params = s.params
  resetReq : t.resetReq = s.resetReq
  stopReq : t.stopReq = s.stopReq
  fault : t.fault = s.fault
  memories : s.MemoriesOk → t.MemoriesOk
  frameCounter : s.apu.fc.InRange → t.apu.fc.InRange

theorem Untimed.refl (s : State) : Untimed s s := ⟨rfl, rfl, rfl, rfl, rfl, rfl, rfl, rfl, rfl, rfl, id, id⟩

theorem Untimed.trans {s t u : State} (h : Untimed s t) (k : Untimed t u) : Untimed s u :=
  ⟨k.1.trans h.1, k.2.trans h.2, k.3.trans h.3, k.4.trans h.4, k.5.trans h.5, k.6.trans h.6, k.7.trans h.7, k.8.trans h.8,
    k.9.trans h.9, k.10.trans h.10, fun m => k.11 (h.11 m), fun m => k.12 (h.12 m)⟩

/-- Nothing but processor registers, cost, stall, the stopped flag, the joypad count and events differ. -/
theorem Untimed.of_eq {s t : State} (hp : t.ppu = s.ppu) (ha : t.apu = s.apu) (hr : t.ram = s.ram) (hc : t.cyc = s.cyc)
    (hn : t.nmiPrev = s.nmiPrev) (hq : t.params = s.params) (h1 : t.resetReq = s.resetReq) (h2 : t.stopReq = s.stopReq)
    (hf : t.fault = s.fault) : Untimed s t := by
  refine ⟨by rw [hp], by rw [hp], by rw [hp], by rw [ha], hc, hn, hq, h1, h2, hf, fun m => ?_, fun m => by rw [ha]; exact m⟩
  exact ⟨hr ▸ m.ram, hp ▸ m.vram, hp ▸ m.palette, hp ▸ m.oam, hq ▸ m.prg, hq ▸ m.chr⟩

/-- A PPU that differs outside its timer, with memories as good as before. -/
theorem Untimed.setPpu (s : State) (u : Ppu) (h1 : u.scanline = s.ppu.scanline) (h2 : u.cycle = s.ppu.cycle)
    (h3 : u.frameComplete = s.ppu.frameComplete)
    (hv : s.MemoriesOk → u.vram.wf ∧ u.vram.within Config.vramBytes)
    (hp : s.MemoriesOk → u.palette.wf ∧ u.palette.within Config.paletteBytes)
    (ho : s.MemoriesOk → u.oam.wf ∧ u.oam.within Config.oamBytes) : Untimed s (s.setPpu u) :=
  ⟨h1, h2, h3, rfl, rfl, rfl, rfl, rfl, rfl, rfl, fun m => ⟨m.ram, hv m, hp m, ho m, m.prg, m.chr⟩, id⟩

/-- A PPU that differs in registers only. -/
theorem Untimed.setPpu_registers (s : State) (u : Ppu) (h1 : u.scanline = s.ppu.scanline) (h2 : u.cycle = s.ppu.cycle)
    (h3 : u.frameComplete = s.ppu.frameComplete) (hv : u.vram = s.ppu.vram) (hp : u.palette = s.ppu.palette)
    (ho : u.oam = s.ppu.oam) : Untimed s (s.setPpu u) :=
  Untimed.setPpu s u h1 h2 h3 (fun m => hv ▸ m.vram) (fun m => hp ▸ m.palette) (fun m => ho ▸ m.oam)

/-- An APU with the same parity and a frame counter in range. -/
theorem Untimed.setApu (s : State) (u : Apu) (h1 : u.apuOdd = s.apu.apuOdd) (h2 : s.apu.fc.InRange → u.fc.InRange) :
    Untimed s (s.setApu u) :=
  ⟨rfl, rfl, rfl, h1, rfl, rfl, rfl, rfl, rfl, rfl, fun m => ⟨m.ram, m.vram, m.palette, m.oam, m.prg, m.chr⟩, h2⟩

theorem Untimed.emit (s : State) (e : Event) : Untimed s (s.emit e) :=
  Untimed.of_eq rfl rfl rfl rfl rfl rfl rfl rfl rfl

/-! ## Indexes stay within the memories -/

theorem palIndex_lt (a : BitVec 14) : palIndex a < Config.paletteBytes := by
  have : (a &&& 0x1F).toNat ≤ 31 := by
    rw [BitVec.toNat_and]; exact Nat.and_le_right
  unfold palIndex
  show _ < 32
  dsimp only
  split <;> omega

/-- The nametable offset of an address of the nametable range (R284). -/
theorem nametableOffset_eq (a : BitVec 14) (h : 0x2000 ≤ a.toNat) :
    (a &&& 0x2FFF).toNat - 0x2000 = a.toNat % 0x1000 := by
  have h2 : a.toNat &&& 0x2FFF = 0x2000 + a.toNat % 0x1000 := by
    have e : (0x2FFF : Nat) = 2 ^ 14 - 1 - 2 ^ 12 := rfl
    have key : ∀ q : Fin 4, ∀ r : Nat, r < 2 ^ 12 → 2 ≤ q.val →
        (2 ^ 12 * q.val + r) &&& 0x2FFF = 0x2000 + r := by
      intro q r hr hq
      have h0 : (0x2FFF : Nat) = 2 ^ 12 * 2 + 4095 := rfl
      rw [h0, Nat.two_pow_add_eq_or_of_lt hr, Nat.two_pow_add_eq_or_of_lt (show 4095 < 2 ^ 12 by decide)]
      rw [Nat.and_or_distrib_left, Nat.and_or_distrib_right, Nat.and_or_distrib_right]
      have e1 : r &&& 4095 = r := by rw [show 4095 = 2 ^ 12 - 1 from rfl, Nat.and_two_pow_sub_one_eq_mod]; omega
      have e2 : r &&& 2 ^ 12 * 2 = 0 := by
        apply Nat.eq_of_testBit_eq; intro i
        rw [Nat.testBit_and, Nat.zero_testBit, Bool.and_eq_false_iff]
        by_cases hi : i < 12
        · right; rw [show (2 ^ 12 * 2 : Nat) = 2 ^ 13 from rfl, Nat.testBit_two_pow]; simp; omega
        · left; exact Nat.testBit_lt_two_pow (Nat.lt_of_lt_of_le hr (Nat.pow_le_pow_right (by decide) (by omega)))
      have e3 : 2 ^ 12 * q.val &&& 4095 = 0 := by
        rw [show 4095 = 2 ^ 12 - 1 from rfl, Nat.and_two_pow_sub_one_eq_mod]; omega
      have e4 : 2 ^ 12 * q.val &&& 2 ^ 12 * 2 = 2 ^ 12 * 2 := by revert hq; revert q; decide
      rw [e1, e2, e3, e4]
      rw [Nat.zero_or, Nat.or_zero]
      rw [show (0x2000 : Nat) = 2 ^ 12 * 2 from rfl, Nat.two_pow_add_eq_or_of_lt hr]
    have hlt := a.isLt
    have hd : a.toNat = 2 ^ 12 * (a.toNat / 2 ^ 12) + a.toNat % 2 ^ 12 := by omega
    have := key ⟨a.toNat / 2 ^ 12, by omega⟩ (a.toNat % 2 ^ 12) (Nat.mod_lt _ (by decide)) (by show 2 ≤ a.toNat / 2 ^ 12; omega)
    rw [← hd] at this
    exact this
  rw [BitVec.toNat_and]
  show (a.toNat &&& 0x2FFF) - 0x2000 = _
  rw [h2]; omega

theorem mirrorVram_lt (m : Mirroring) (a : BitVec 14) (h : 0x2000 ≤ a.toNat) : mirrorVram m a < Config.vramBytes := by
  unfold mirrorVram
  rw [nametableOffset_eq a h]
  show _ < 2048
  dsimp only
  cases m <;> dsimp only <;> repeat' split
  all_goals omega

theorem sequenceLength_pos (mode : Bool) : 0 < Apu.sequenceLength mode := by cases mode <;> decide

/-! ## Addresses of memory -/

/-- Two images of one byte of RAM, by window and index (R91). -/
theorem sameRamByte_iff (a b : Word) : SameRamByte a b ↔ windowOf a = .ram ∧ windowOf b = .ram ∧ ramIndex b = ramIndex a := by
  rw [windowOf_ram_iff, windowOf_ram_iff, ramIndex_eq, ramIndex_eq]
  unfold SameRamByte; omega

/-- Where a byte is held. -/
theorem holdsByte_iff (a : Word) : HoldsByte a ↔ windowOf a = .ram ∨ windowOf a = .prg := by
  rw [windowOf_ram_iff, windowOf_prg_iff]; unfold HoldsByte; omega

/-- A write leaves every byte alone that is no image of the one it stores. -/
theorem busWrite_memByte_of_not (e a : Word) (v : Byte) (s : State) (h : ¬ SameRamByte e a) :
    (busWrite e v s).memByte a = s.memByte a := by
  rw [busWrite_memByte, if_neg (fun hh => h ((sameRamByte_iff _ _).2 hh))]

/-! ## Bus accesses -/

theorem Untimed.busRead (a : Word) (s : State) : Untimed s (busRead a s).2 := by
  unfold Machine.busRead
  split
  · exact .refl s
  · unfold ppuRegRead
    split
    · exact .setPpu_registers s _ rfl rfl rfl rfl rfl rfl
    · exact .refl s
    · unfold Ppu.dataRead
      split <;> exact .setPpu_registers s _ rfl rfl rfl rfl rfl rfl
    · exact .emit s _
  · exact .emit s _
  · exact .emit s _
  · exact .setApu s _ rfl id
  · exact .of_eq rfl rfl rfl rfl rfl rfl rfl rfl rfl
  · exact .refl s
  · exact .emit s _
  · exact .refl s

theorem oamIndex_lt (v : Byte) : v.toNat < Config.oamBytes := v.isLt

theorem Untimed.oamDataWrite (s : State) (v : Byte) : Untimed s (s.setPpu (s.ppu.oamDataWrite v)) :=
  .setPpu s _ rfl rfl rfl (fun m => m.vram) (fun m => m.palette)
    (fun m => ⟨Memory.wf_write _ _ _ m.oam.1, Memory.within_write _ _ _ _ m.oam.2 (oamIndex_lt _)⟩)

theorem Untimed.oamDmaCopy (page : Byte) (k : Nat) (s : State) : Untimed s (oamDmaCopy page k s) := by
  induction k with
  | zero => exact .refl s
  | succ k ih => exact ih.trans ((Untimed.busRead _ _).trans (.oamDataWrite _ _))

theorem Untimed.dataWrite (s : State) (v : Byte) : Untimed s (s.setPpu (s.ppu.dataWrite s.params v)) := by
  unfold Ppu.dataWrite vramTarget
  split
  · exact .setPpu_registers s _ rfl rfl rfl rfl rfl rfl
  · next h =>
    refine .setPpu s _ rfl rfl rfl (fun m => ⟨Memory.wf_write _ _ _ m.vram.1, Memory.within_write _ _ _ _ m.vram.2 ?_⟩)
      (fun m => m.palette) (fun m => m.oam)
    exact mirrorVram_lt _ _ (by by_cases h' : s.ppu.vramAddr.toNat ≤ 0x1FFF <;> simp_all <;> omega)
  · exact .setPpu s _ rfl rfl rfl (fun m => m.vram)
      (fun m => ⟨Memory.wf_write _ _ _ m.palette.1, Memory.within_write _ _ _ _ m.palette.2 (palIndex_lt _)⟩) (fun m => m.oam)

theorem Untimed.busWrite (a : Word) (v : Byte) (s : State) : Untimed s (busWrite a v s) := by
  unfold Machine.busWrite
  split
  · refine ⟨rfl, rfl, rfl, rfl, rfl, rfl, rfl, rfl, rfl, rfl, fun m => ⟨?_, m.vram, m.palette, m.oam, m.prg, m.chr⟩, id⟩
    exact ⟨Memory.wf_write _ _ _ m.ram.1, Memory.within_write _ _ _ _ m.ram.2 (ramIndex_lt _)⟩
  · unfold ppuRegWrite
    split
    · exact .setPpu_registers s _ rfl rfl rfl rfl rfl rfl
    · exact .setPpu_registers s _ rfl rfl rfl rfl rfl rfl
    · exact .emit s _
    · exact .setPpu_registers s _ rfl rfl rfl rfl rfl rfl
    · exact .oamDataWrite s v
    · unfold Ppu.scrollWrite
      split <;> exact .setPpu_registers s _ rfl rfl rfl rfl rfl rfl
    · unfold Ppu.addrWrite
      split <;> exact .setPpu_registers s _ rfl rfl rfl rfl rfl rfl
    · refine Untimed.trans ?_ (?_ : Untimed (chrWriteDiag v s) _)
      · unfold chrWriteDiag
        split
        · exact .emit s _
        · exact .refl s
      · have h := Untimed.dataWrite (chrWriteDiag v s) v
        have hp : (chrWriteDiag v s).ppu = s.ppu := by unfold chrWriteDiag; split <;> rfl
        have hq : (chrWriteDiag v s).params = s.params := by unfold chrWriteDiag; split <;> rfl
        rwa [hp, hq] at h
  · refine .setApu s _ ?_ ?_ <;> unfold Apu.regWrite <;> (repeat' split) <;> first | rfl | exact id
  · exact (Untimed.oamDmaCopy v 256 s).trans (.of_eq rfl rfl rfl rfl rfl rfl rfl rfl rfl)
  · exact .setApu s _ rfl id
  · exact .emit s _
  · refine .setApu s _ ?_ ?_ <;> unfold Apu.frameCounterWrite <;> dsimp only <;> split <;>
      first | rfl | exact fun _ => ⟨sequenceLength_pos _, (by decide : 0 < Config.frameStepPeriod)⟩
  · exact .emit s _
  · exact .emit s _

/-- The stall after a write: one of 0, 513, 514 if it was (R31). -/
theorem busWrite_dmaStall_range (a : Word) (v : Byte) (s : State) (h : s.dmaStall = 0 ∨ s.dmaStall = 513 ∨ s.dmaStall = 514) :
    (busWrite a v s).dmaStall = 0 ∨ (busWrite a v s).dmaStall = 513 ∨ (busWrite a v s).dmaStall = 514 := by
  by_cases hw : windowOf a = .oamDma
  · have : (busWrite a v s).dmaStall = 513 + s.cyc % 2 := by
      simp [busWrite, hw, oamDma]
    omega
  · rwa [busWrite_dmaStall_of_not a v s hw]

/-! ## Operands -/

/-- Reading the pointer of an operand touches what a read touches. -/
theorem operandOf_touches (i : Instr) (s : State) : ∃ u v n es,
    (operandOf i s).2 = { s with ppu := u, apu := v, joypadReads := n, events := s.events ++ es } := by
  have keep : ∃ u v n es, s = { s with ppu := u, apu := v, joypadReads := n, events := s.events ++ es } :=
    ⟨s.ppu, s.apu, s.joypadReads, [], by simp⟩
  unfold operandOf
  split
  case h_7 => simpa [indirectX, readZP16_eq] using keep
  case h_8 => simpa [indirectY, readZP16_eq] using keep
  case h_9 =>
    simp only [indirect, readBug16]
    obtain ⟨u, v, n, es, h⟩ := busRead_touches (operandWord i) s
    obtain ⟨u', v', n', es', h'⟩ :=
      busRead_touches (word (hiByte (operandWord i)) (loByte (operandWord i) + 1)) (busRead (operandWord i) s).2
    exact ⟨u', v', n', es ++ es', by rw [h', h]; simp⟩
  all_goals exact keep

/-- Reading an operand touches what a read touches. -/
theorem sourceOf_touches (i : Instr) (s : State) : ∃ u v n es,
    (sourceOf i s).2 = { s with ppu := u, apu := v, joypadReads := n, events := s.events ++ es } := by
  unfold sourceOf
  split
  case h_3 =>
    obtain ⟨u, v, n, es, h⟩ := operandOf_touches i s
    obtain ⟨u', v', n', es', h'⟩ := busRead_touches (eaOf i s) (operandOf i s).2
    exact ⟨u', v', n', es ++ es', by rw [h', h]; simp⟩
  all_goals exact ⟨s.ppu, s.apu, s.joypadReads, [], by simp⟩

theorem Untimed.operandOf (i : Instr) (s : State) : Untimed s (operandOf i s).2 := by
  unfold Machine.operandOf
  split
  case h_7 => simpa [indirectX, readZP16_eq] using Untimed.refl s
  case h_8 => simpa [indirectY, readZP16_eq] using Untimed.refl s
  case h_9 => exact (Untimed.busRead _ _).trans (.busRead _ _)
  all_goals exact .refl s

theorem Untimed.sourceOf (i : Instr) (s : State) : Untimed s (sourceOf i s).2 := by
  unfold Machine.sourceOf
  split
  case h_3 => exact (Untimed.operandOf i s).trans (.busRead _ _)
  all_goals exact .refl s

@[simp] theorem operandOf_memByte (i : Instr) (s : State) (a : Word) : (operandOf i s).2.memByte a = s.memByte a := by
  obtain ⟨_, _, _, _, h⟩ := operandOf_touches i s
  rw [h]; exact memByte_congr _ _ _ rfl rfl

@[simp] theorem sourceOf_memByte (i : Instr) (s : State) (a : Word) : (sourceOf i s).2.memByte a = s.memByte a := by
  obtain ⟨_, _, _, _, h⟩ := sourceOf_touches i s
  rw [h]; exact memByte_congr _ _ _ rfl rfl

@[simp] theorem operandOf_a (i : Instr) (s : State) : (operandOf i s).2.a = s.a := by obtain ⟨_, _, _, _, h⟩ := operandOf_touches i s; rw [h]
@[simp] theorem operandOf_x (i : Instr) (s : State) : (operandOf i s).2.x = s.x := by obtain ⟨_, _, _, _, h⟩ := operandOf_touches i s; rw [h]
@[simp] theorem operandOf_y (i : Instr) (s : State) : (operandOf i s).2.y = s.y := by obtain ⟨_, _, _, _, h⟩ := operandOf_touches i s; rw [h]
@[simp] theorem operandOf_sp (i : Instr) (s : State) : (operandOf i s).2.sp = s.sp := by obtain ⟨_, _, _, _, h⟩ := operandOf_touches i s; rw [h]
@[simp] theorem operandOf_p (i : Instr) (s : State) : (operandOf i s).2.p = s.p := by obtain ⟨_, _, _, _, h⟩ := operandOf_touches i s; rw [h]
@[simp] theorem operandOf_pc (i : Instr) (s : State) : (operandOf i s).2.pc = s.pc := by obtain ⟨_, _, _, _, h⟩ := operandOf_touches i s; rw [h]
@[simp] theorem operandOf_cyc (i : Instr) (s : State) : (operandOf i s).2.cyc = s.cyc := by obtain ⟨_, _, _, _, h⟩ := operandOf_touches i s; rw [h]
@[simp] theorem operandOf_halted (i : Instr) (s : State) : (operandOf i s).2.halted = s.halted := by obtain ⟨_, _, _, _, h⟩ := operandOf_touches i s; rw [h]
@[simp] theorem operandOf_fault (i : Instr) (s : State) : (operandOf i s).2.fault = s.fault := by obtain ⟨_, _, _, _, h⟩ := operandOf_touches i s; rw [h]
@[simp] theorem operandOf_dmaStall (i : Instr) (s : State) : (operandOf i s).2.dmaStall = s.dmaStall := by obtain ⟨_, _, _, _, h⟩ := operandOf_touches i s; rw [h]
@[simp] theorem operandOf_stepCycles (i : Instr) (s : State) : (operandOf i s).2.stepCycles = s.stepCycles := by obtain ⟨_, _, _, _, h⟩ := operandOf_touches i s; rw [h]
@[simp] theorem operandOf_ram (i : Instr) (s : State) : (operandOf i s).2.ram = s.ram := by obtain ⟨_, _, _, _, h⟩ := operandOf_touches i s; rw [h]
@[simp] theorem operandOf_nmiPrev (i : Instr) (s : State) : (operandOf i s).2.nmiPrev = s.nmiPrev := by obtain ⟨_, _, _, _, h⟩ := operandOf_touches i s; rw [h]
@[simp] theorem operandOf_params (i : Instr) (s : State) : (operandOf i s).2.params = s.params := by obtain ⟨_, _, _, _, h⟩ := operandOf_touches i s; rw [h]
@[simp] theorem operandOf_resetReq (i : Instr) (s : State) : (operandOf i s).2.resetReq = s.resetReq := by obtain ⟨_, _, _, _, h⟩ := operandOf_touches i s; rw [h]
@[simp] theorem operandOf_stopReq (i : Instr) (s : State) : (operandOf i s).2.stopReq = s.stopReq := by obtain ⟨_, _, _, _, h⟩ := operandOf_touches i s; rw [h]
@[simp] theorem sourceOf_a (i : Instr) (s : State) : (sourceOf i s).2.a = s.a := by obtain ⟨_, _, _, _, h⟩ := sourceOf_touches i s; rw [h]
@[simp] theorem sourceOf_x (i : Instr) (s : State) : (sourceOf i s).2.x = s.x := by obtain ⟨_, _, _, _, h⟩ := sourceOf_touches i s; rw [h]
@[simp] theorem sourceOf_y (i : Instr) (s : State) : (sourceOf i s).2.y = s.y := by obtain ⟨_, _, _, _, h⟩ := sourceOf_touches i s; rw [h]
@[simp] theorem sourceOf_sp (i : Instr) (s : State) : (sourceOf i s).2.sp = s.sp := by obtain ⟨_, _, _, _, h⟩ := sourceOf_touches i s; rw [h]
@[simp] theorem sourceOf_p (i : Instr) (s : State) : (sourceOf i s).2.p = s.p := by obtain ⟨_, _, _, _, h⟩ := sourceOf_touches i s; rw [h]
@[simp] theorem sourceOf_pc (i : Instr) (s : State) : (sourceOf i s).2.pc = s.pc := by obtain ⟨_, _, _, _, h⟩ := sourceOf_touches i s; rw [h]
@[simp] theorem sourceOf_cyc (i : Instr) (s : State) : (sourceOf i s).2.cyc = s.cyc := by obtain ⟨_, _, _, _, h⟩ := sourceOf_touches i s; rw [h]
@[simp] theorem sourceOf_halted (i : Instr) (s : State) : (sourceOf i s).2.halted = s.halted := by obtain ⟨_, _, _, _, h⟩ := sourceOf_touches i s; rw [h]
@[simp] theorem sourceOf_fault (i : Instr) (s : State) : (sourceOf i s).2.fault = s.fault := by obtain ⟨_, _, _, _, h⟩ := sourceOf_touches i s; rw [h]
@[simp] theorem sourceOf_dmaStall (i : Instr) (s : State) : (sourceOf i s).2.dmaStall = s.dmaStall := by obtain ⟨_, _, _, _, h⟩ := sourceOf_touches i s; rw [h]
@[simp] theorem sourceOf_stepCycles (i : Instr) (s : State) : (sourceOf i s).2.stepCycles = s.stepCycles := by obtain ⟨_, _, _, _, h⟩ := sourceOf_touches i s; rw [h]
@[simp] theorem sourceOf_ram (i : Instr) (s : State) : (sourceOf i s).2.ram = s.ram := by obtain ⟨_, _, _, _, h⟩ := sourceOf_touches i s; rw [h]
@[simp] theorem sourceOf_nmiPrev (i : Instr) (s : State) : (sourceOf i s).2.nmiPrev = s.nmiPrev := by obtain ⟨_, _, _, _, h⟩ := sourceOf_touches i s; rw [h]
@[simp] theorem sourceOf_params (i : Instr) (s : State) : (sourceOf i s).2.params = s.params := by obtain ⟨_, _, _, _, h⟩ := sourceOf_touches i s; rw [h]
@[simp] theorem sourceOf_resetReq (i : Instr) (s : State) : (sourceOf i s).2.resetReq = s.resetReq := by obtain ⟨_, _, _, _, h⟩ := sourceOf_touches i s; rw [h]
@[simp] theorem sourceOf_stopReq (i : Instr) (s : State) : (sourceOf i s).2.stopReq = s.stopReq := by obtain ⟨_, _, _, _, h⟩ := sourceOf_touches i s; rw [h]

/-! ## The stack and the handlers -/

theorem Untimed.push (v : Byte) (s : State) : Untimed s (push v s) :=
  (Untimed.busWrite _ _ _).trans (.of_eq rfl rfl rfl rfl rfl rfl rfl rfl rfl)

theorem Untimed.push16 (w : Word) (s : State) : Untimed s (push16 w s) := (Untimed.push _ _).trans (.push _ _)

theorem Untimed.pop (s : State) : Untimed s (pop s).2 := by
  rw [pop_eq]; exact .of_eq rfl rfl rfl rfl rfl rfl rfl rfl rfl

theorem Untimed.pop16 (s : State) : Untimed s (pop16 s).2 := (Untimed.pop s).trans (.pop _)

theorem Untimed.read16 (a : Word) (s : State) : Untimed s (read16 a s).2 := (Untimed.busRead _ _).trans (.busRead _ _)

theorem Untimed.setPC (s : State) (v : Word) : Untimed s (s.setPC v) := .of_eq rfl rfl rfl rfl rfl rfl rfl rfl rfl

theorem Untimed.setP (s : State) (v : Byte) : Untimed s (s.setP v) := .of_eq rfl rfl rfl rfl rfl rfl rfl rfl rfl

theorem Untimed.setStepCycles (s : State) (n : Nat) : Untimed s (s.setStepCycles n) :=
  .of_eq rfl rfl rfl rfl rfl rfl rfl rfl rfl

theorem Untimed.enterHandler (ret : Word) (status : Byte) (vector : Word) (s : State) :
    Untimed s (enterHandler ret status vector s) :=
  ((((Untimed.push16 ret s).trans (.push status _)).trans (.setP _ _)).trans (.read16 vector _)).trans (.setPC _ _)

theorem Untimed.interruptEntry (k : Interrupt) (s : State) : Untimed s (interruptEntry k s) := by
  refine Untimed.trans ?_ (.enterHandler _ _ _ _)
  cases k
  · exact .setPpu_registers s _ rfl rfl rfl rfl rfl rfl
  · exact .refl s

theorem Untimed.returnFromInterrupt (s : State) : Untimed s (returnFromInterrupt s) := by
  rw [returnFromInterrupt_eq]; exact .of_eq rfl rfl rfl rfl rfl rfl rfl rfl rfl

/-! ## Instructions -/

/-- An answer that completes from a state reached by bus accesses. -/
theorem Untimed.complete {s u t : State} (hu : Untimed s u) {cycles : Nat} (h : complete cycles u = .next t) : Untimed s t := by
  cases h; exact hu.trans (.setStepCycles _ _)

theorem Untimed.advance {s u t : State} (hu : Untimed s u) {len cycles : Nat} (h : advance len cycles u = .next t) :
    Untimed s t :=
  (hu.trans (.setPC _ _)).complete h

theorem Untimed.modifyBy {i : Instr} {s t : State} {op : Byte → Byte → Byte × Byte} (h : modifyBy i s op = .next t) :
    Untimed s t := by
  unfold Machine.modifyBy at h
  split at h
  · have hu : Untimed s (setAP (op s.a s.p) s) := .of_eq rfl rfl rfl rfl rfl rfl rfl rfl rfl
    exact hu.advance h
  · exact (((Untimed.sourceOf i s).trans (.busWrite _ _ _)).trans (.setP _ _)).advance h

theorem Untimed.storeBy {i : Instr} {s t : State} {v : Byte} (h : storeBy i s v = .next t) : Untimed s t :=
  ((Untimed.operandOf i s).trans (.busWrite _ _ _)).advance h

theorem Untimed.readBy {i : Instr} {s t : State} {effect : Byte → State → State}
    (he : ∀ m u, Untimed u (effect m u)) (h : readBy i s effect = .next t) : Untimed s t :=
  ((Untimed.sourceOf i s).trans (he _ _)).advance h

theorem Untimed.branch {cond : Bool} {off : Byte} {s t : State} (h : branch cond off s = .next t) : Untimed s t := by
  unfold Machine.branch at h
  dsimp only at h
  split at h
  · exact (Untimed.setPC s _).complete h
  · exact (Untimed.setPC s _).complete h

theorem Untimed.brk {s t : State} (h : execBrk s = .next t) : Untimed s t := by
  unfold execBrk at h
  split at h
  · cases h; exact .of_eq rfl rfl rfl rfl rfl rfl rfl rfl rfl
  · exact (Untimed.enterHandler _ _ _ s).complete h

/-- No instruction lets device time pass, and none changes the parameters, the requests or the latched fault; each keeps the
memories in form and the frame counter in range. -/
theorem Untimed.exec {i : Instr} {s t : State} (h : exec i s = .next t) : Untimed s t := by
  have load (f : Byte → State → State) (hf : ∀ m u, (f m u).outside = u.outside) (m : Byte) (u : State) : Untimed u (f m u) := by
    have := hf m u
    simp only [State.outside, Outside.mk.injEq] at this
    obtain ⟨h1, -, h3, -, h5, h6, h7, h8, h9, h10, h11, -, -⟩ := this
    exact .of_eq h7 h8 h5 h1 h6 h9 h10 h11 h3
  have hA := load loadA fun _ _ => rfl
  have hX := load loadX fun _ _ => rfl
  have hY := load loadY fun _ _ => rfl
  have hS (v : Byte) : Untimed s (s.setSP v) := .of_eq rfl rfl rfl rfl rfl rfl rfl rfl rfl
  rw [exec_eq] at h
  unfold execByMnemonic at h
  split at h
  · exact .readBy (load loadA fun _ _ => rfl) h
  · exact .readBy (load loadX fun _ _ => rfl) h
  · exact .readBy (load loadY fun _ _ => rfl) h
  · exact .storeBy h
  · exact .storeBy h
  · exact .storeBy h
  · exact (hX _ s).advance h
  · exact (hY _ s).advance h
  · exact (hA _ s).advance h
  · exact (hA _ s).advance h
  · exact (hX _ s).advance h
  · exact (hS s.x).advance h
  · exact .readBy (load addA fun _ _ => rfl) h
  · exact .readBy (load subA fun _ _ => rfl) h
  · exact .readBy (load andA fun _ _ => rfl) h
  · exact .readBy (load orA fun _ _ => rfl) h
  · exact .readBy (load eorA fun _ _ => rfl) h
  · exact .readBy (load compareA fun _ _ => rfl) h
  · exact .readBy (load compareX fun _ _ => rfl) h
  · exact .readBy (load compareY fun _ _ => rfl) h
  · exact .readBy (load testA fun _ _ => rfl) h
  · exact .modifyBy h
  · exact .modifyBy h
  · exact (hX _ s).advance h
  · exact (hY _ s).advance h
  · exact (hX _ s).advance h
  · exact (hY _ s).advance h
  · exact .modifyBy h
  · exact .modifyBy h
  · exact .modifyBy h
  · exact .modifyBy h
  · exact ((Untimed.operandOf i s).trans (.setPC _ _)).complete h
  · exact ((Untimed.push16 _ s).trans (.setPC _ _)).complete h
  · exact ((Untimed.pop16 s).trans (.setPC _ _)).complete h
  · exact (Untimed.returnFromInterrupt s).complete h
  · exact .brk h
  · exact (Untimed.refl s).advance h
  · exact .branch h
  · exact .branch h
  · exact .branch h
  · exact .branch h
  · exact .branch h
  · exact .branch h
  · exact .branch h
  · exact .branch h
  · exact (Untimed.push _ s).advance h
  · exact (Untimed.push _ s).advance h
  · exact ((Untimed.pop s).trans (.setP _ _)).advance h
  · exact ((Untimed.pop s).trans (hA _ _)).advance h
  · exact (Untimed.setP s _).advance h
  · exact (Untimed.setP s _).advance h
  · exact (Untimed.setP s _).advance h
  · exact (Untimed.setP s _).advance h
  · exact (Untimed.setP s _).advance h
  · exact (Untimed.setP s _).advance h
  · exact (Untimed.setP s _).advance h

end Sys2Proof.Machine
end

