-- ==== Sys2Proof/Laws/Operands.lean ====
section
/-! SUPPORT. What the shapes of the instruction rules answer, and what their effects on the registers leave alone. -/

namespace Sys2Proof.Machine

/-! ## The end of an instruction -/

/-- The answer of an instruction that has written `PC` itself. -/
theorem complete_next_iff (cycles : Nat) (s t : State) :
    complete cycles s = .next t ↔ t = s.setStepCycles (cycles + s.dmaStall) :=
  ⟨fun h => (Host.Outcome.next.inj h).symm, fun h => congrArg Host.Outcome.next h.symm⟩

/-- The answer of an instruction that does not write `PC`. -/
theorem advance_next_iff (len cycles : Nat) (s t : State) :
    advance len cycles s = .next t ↔
      t = (s.setPC (s.pc + BitVec.ofNat 16 len)).setStepCycles (cycles + s.dmaStall) :=
  complete_next_iff cycles _ t

/-- The answer of a branch. -/
theorem branch_next_iff (cond : Bool) (off : Byte) (s t : State) :
    branch cond off s = .next t ↔
      t = if cond then
          (s.setPC (branchTarget s.pc off)).setStepCycles
            ((if pageCross (s.pc + 2) (branchTarget s.pc off) then 4 else 3) + s.dmaStall)
        else (s.setPC (s.pc + 2)).setStepCycles (2 + s.dmaStall) := by
  unfold branch
  dsimp only
  split <;> exact complete_next_iff _ _ t

/-! ## Effects on the registers -/

@[simp] theorem loadA_x (m : Byte) (s : State) : (loadA m s).x = s.x := rfl
@[simp] theorem loadA_y (m : Byte) (s : State) : (loadA m s).y = s.y := rfl
@[simp] theorem loadA_sp (m : Byte) (s : State) : (loadA m s).sp = s.sp := rfl
@[simp] theorem loadA_pc (m : Byte) (s : State) : (loadA m s).pc = s.pc := rfl
@[simp] theorem loadA_cyc (m : Byte) (s : State) : (loadA m s).cyc = s.cyc := rfl
@[simp] theorem loadA_halted (m : Byte) (s : State) : (loadA m s).halted = s.halted := rfl
@[simp] theorem loadA_fault (m : Byte) (s : State) : (loadA m s).fault = s.fault := rfl
@[simp] theorem loadA_dmaStall (m : Byte) (s : State) : (loadA m s).dmaStall = s.dmaStall := rfl
@[simp] theorem loadA_stepCycles (m : Byte) (s : State) : (loadA m s).stepCycles = s.stepCycles := rfl
@[simp] theorem loadA_ram (m : Byte) (s : State) : (loadA m s).ram = s.ram := rfl
@[simp] theorem loadA_nmiPrev (m : Byte) (s : State) : (loadA m s).nmiPrev = s.nmiPrev := rfl
@[simp] theorem loadA_ppu (m : Byte) (s : State) : (loadA m s).ppu = s.ppu := rfl
@[simp] theorem loadA_apu (m : Byte) (s : State) : (loadA m s).apu = s.apu := rfl
@[simp] theorem loadA_params (m : Byte) (s : State) : (loadA m s).params = s.params := rfl
@[simp] theorem loadA_resetReq (m : Byte) (s : State) : (loadA m s).resetReq = s.resetReq := rfl
@[simp] theorem loadA_stopReq (m : Byte) (s : State) : (loadA m s).stopReq = s.stopReq := rfl
@[simp] theorem loadA_joypadReads (m : Byte) (s : State) : (loadA m s).joypadReads = s.joypadReads := rfl
@[simp] theorem loadA_events (m : Byte) (s : State) : (loadA m s).events = s.events := rfl
@[simp] theorem loadA_memByte (m : Byte) (s : State) (k : Word) : (loadA m s).memByte k = s.memByte k := rfl

@[simp] theorem loadX_a (m : Byte) (s : State) : (loadX m s).a = s.a := rfl
@[simp] theorem loadX_y (m : Byte) (s : State) : (loadX m s).y = s.y := rfl
@[simp] theorem loadX_sp (m : Byte) (s : State) : (loadX m s).sp = s.sp := rfl
@[simp] theorem loadX_pc (m : Byte) (s : State) : (loadX m s).pc = s.pc := rfl
@[simp] theorem loadX_cyc (m : Byte) (s : State) : (loadX m s).cyc = s.cyc := rfl
@[simp] theorem loadX_halted (m : Byte) (s : State) : (loadX m s).halted = s.halted := rfl
@[simp] theorem loadX_fault (m : Byte) (s : State) : (loadX m s).fault = s.fault := rfl
@[simp] theorem loadX_dmaStall (m : Byte) (s : State) : (loadX m s).dmaStall = s.dmaStall := rfl
@[simp] theorem loadX_stepCycles (m : Byte) (s : State) : (loadX m s).stepCycles = s.stepCycles := rfl
@[simp] theorem loadX_ram (m : Byte) (s : State) : (loadX m s).ram = s.ram := rfl
@[simp] theorem loadX_nmiPrev (m : Byte) (s : State) : (loadX m s).nmiPrev = s.nmiPrev := rfl
@[simp] theorem loadX_ppu (m : Byte) (s : State) : (loadX m s).ppu = s.ppu := rfl
@[simp] theorem loadX_apu (m : Byte) (s : State) : (loadX m s).apu = s.apu := rfl
@[simp] theorem loadX_params (m : Byte) (s : State) : (loadX m s).params = s.params := rfl
@[simp] theorem loadX_resetReq (m : Byte) (s : State) : (loadX m s).resetReq = s.resetReq := rfl
@[simp] theorem loadX_stopReq (m : Byte) (s : State) : (loadX m s).stopReq = s.stopReq := rfl
@[simp] theorem loadX_joypadReads (m : Byte) (s : State) : (loadX m s).joypadReads = s.joypadReads := rfl
@[simp] theorem loadX_events (m : Byte) (s : State) : (loadX m s).events = s.events := rfl
@[simp] theorem loadX_memByte (m : Byte) (s : State) (k : Word) : (loadX m s).memByte k = s.memByte k := rfl

@[simp] theorem loadY_a (m : Byte) (s : State) : (loadY m s).a = s.a := rfl
@[simp] theorem loadY_x (m : Byte) (s : State) : (loadY m s).x = s.x := rfl
@[simp] theorem loadY_sp (m : Byte) (s : State) : (loadY m s).sp = s.sp := rfl
@[simp] theorem loadY_pc (m : Byte) (s : State) : (loadY m s).pc = s.pc := rfl
@[simp] theorem loadY_cyc (m : Byte) (s : State) : (loadY m s).cyc = s.cyc := rfl
@[simp] theorem loadY_halted (m : Byte) (s : State) : (loadY m s).halted = s.halted := rfl
@[simp] theorem loadY_fault (m : Byte) (s : State) : (loadY m s).fault = s.fault := rfl
@[simp] theorem loadY_dmaStall (m : Byte) (s : State) : (loadY m s).dmaStall = s.dmaStall := rfl
@[simp] theorem loadY_stepCycles (m : Byte) (s : State) : (loadY m s).stepCycles = s.stepCycles := rfl
@[simp] theorem loadY_ram (m : Byte) (s : State) : (loadY m s).ram = s.ram := rfl
@[simp] theorem loadY_nmiPrev (m : Byte) (s : State) : (loadY m s).nmiPrev = s.nmiPrev := rfl
@[simp] theorem loadY_ppu (m : Byte) (s : State) : (loadY m s).ppu = s.ppu := rfl
@[simp] theorem loadY_apu (m : Byte) (s : State) : (loadY m s).apu = s.apu := rfl
@[simp] theorem loadY_params (m : Byte) (s : State) : (loadY m s).params = s.params := rfl
@[simp] theorem loadY_resetReq (m : Byte) (s : State) : (loadY m s).resetReq = s.resetReq := rfl
@[simp] theorem loadY_stopReq (m : Byte) (s : State) : (loadY m s).stopReq = s.stopReq := rfl
@[simp] theorem loadY_joypadReads (m : Byte) (s : State) : (loadY m s).joypadReads = s.joypadReads := rfl
@[simp] theorem loadY_events (m : Byte) (s : State) : (loadY m s).events = s.events := rfl
@[simp] theorem loadY_memByte (m : Byte) (s : State) (k : Word) : (loadY m s).memByte k = s.memByte k := rfl

@[simp] theorem addA_x (m : Byte) (s : State) : (addA m s).x = s.x := rfl
@[simp] theorem addA_y (m : Byte) (s : State) : (addA m s).y = s.y := rfl
@[simp] theorem addA_sp (m : Byte) (s : State) : (addA m s).sp = s.sp := rfl
@[simp] theorem addA_pc (m : Byte) (s : State) : (addA m s).pc = s.pc := rfl
@[simp] theorem addA_cyc (m : Byte) (s : State) : (addA m s).cyc = s.cyc := rfl
@[simp] theorem addA_halted (m : Byte) (s : State) : (addA m s).halted = s.halted := rfl
@[simp] theorem addA_fault (m : Byte) (s : State) : (addA m s).fault = s.fault := rfl
@[simp] theorem addA_dmaStall (m : Byte) (s : State) : (addA m s).dmaStall = s.dmaStall := rfl
@[simp] theorem addA_stepCycles (m : Byte) (s : State) : (addA m s).stepCycles = s.stepCycles := rfl
@[simp] theorem addA_ram (m : Byte) (s : State) : (addA m s).ram = s.ram := rfl
@[simp] theorem addA_nmiPrev (m : Byte) (s : State) : (addA m s).nmiPrev = s.nmiPrev := rfl
@[simp] theorem addA_ppu (m : Byte) (s : State) : (addA m s).ppu = s.ppu := rfl
@[simp] theorem addA_apu (m : Byte) (s : State) : (addA m s).apu = s.apu := rfl
@[simp] theorem addA_params (m : Byte) (s : State) : (addA m s).params = s.params := rfl
@[simp] theorem addA_resetReq (m : Byte) (s : State) : (addA m s).resetReq = s.resetReq := rfl
@[simp] theorem addA_stopReq (m : Byte) (s : State) : (addA m s).stopReq = s.stopReq := rfl
@[simp] theorem addA_joypadReads (m : Byte) (s : State) : (addA m s).joypadReads = s.joypadReads := rfl
@[simp] theorem addA_events (m : Byte) (s : State) : (addA m s).events = s.events := rfl
@[simp] theorem addA_memByte (m : Byte) (s : State) (k : Word) : (addA m s).memByte k = s.memByte k := rfl

@[simp] theorem subA_x (m : Byte) (s : State) : (subA m s).x = s.x := rfl
@[simp] theorem subA_y (m : Byte) (s : State) : (subA m s).y = s.y := rfl
@[simp] theorem subA_sp (m : Byte) (s : State) : (subA m s).sp = s.sp := rfl
@[simp] theorem subA_pc (m : Byte) (s : State) : (subA m s).pc = s.pc := rfl
@[simp] theorem subA_cyc (m : Byte) (s : State) : (subA m s).cyc = s.cyc := rfl
@[simp] theorem subA_halted (m : Byte) (s : State) : (subA m s).halted = s.halted := rfl
@[simp] theorem subA_fault (m : Byte) (s : State) : (subA m s).fault = s.fault := rfl
@[simp] theorem subA_dmaStall (m : Byte) (s : State) : (subA m s).dmaStall = s.dmaStall := rfl
@[simp] theorem subA_stepCycles (m : Byte) (s : State) : (subA m s).stepCycles = s.stepCycles := rfl
@[simp] theorem subA_ram (m : Byte) (s : State) : (subA m s).ram = s.ram := rfl
@[simp] theorem subA_nmiPrev (m : Byte) (s : State) : (subA m s).nmiPrev = s.nmiPrev := rfl
@[simp] theorem subA_ppu (m : Byte) (s : State) : (subA m s).ppu = s.ppu := rfl
@[simp] theorem subA_apu (m : Byte) (s : State) : (subA m s).apu = s.apu := rfl
@[simp] theorem subA_params (m : Byte) (s : State) : (subA m s).params = s.params := rfl
@[simp] theorem subA_resetReq (m : Byte) (s : State) : (subA m s).resetReq = s.resetReq := rfl
@[simp] theorem subA_stopReq (m : Byte) (s : State) : (subA m s).stopReq = s.stopReq := rfl
@[simp] theorem subA_joypadReads (m : Byte) (s : State) : (subA m s).joypadReads = s.joypadReads := rfl
@[simp] theorem subA_events (m : Byte) (s : State) : (subA m s).events = s.events := rfl
@[simp] theorem subA_memByte (m : Byte) (s : State) (k : Word) : (subA m s).memByte k = s.memByte k := rfl

@[simp] theorem andA_x (m : Byte) (s : State) : (andA m s).x = s.x := rfl
@[simp] theorem andA_y (m : Byte) (s : State) : (andA m s).y = s.y := rfl
@[simp] theorem andA_sp (m : Byte) (s : State) : (andA m s).sp = s.sp := rfl
@[simp] theorem andA_pc (m : Byte) (s : State) : (andA m s).pc = s.pc := rfl
@[simp] theorem andA_cyc (m : Byte) (s : State) : (andA m s).cyc = s.cyc := rfl
@[simp] theorem andA_halted (m : Byte) (s : State) : (andA m s).halted = s.halted := rfl
@[simp] theorem andA_fault (m : Byte) (s : State) : (andA m s).fault = s.fault := rfl
@[simp] theorem andA_dmaStall (m : Byte) (s : State) : (andA m s).dmaStall = s.dmaStall := rfl
@[simp] theorem andA_stepCycles (m : Byte) (s : State) : (andA m s).stepCycles = s.stepCycles := rfl
@[simp] theorem andA_ram (m : Byte) (s : State) : (andA m s).ram = s.ram := rfl
@[simp] theorem andA_nmiPrev (m : Byte) (s : State) : (andA m s).nmiPrev = s.nmiPrev := rfl
@[simp] theorem andA_ppu (m : Byte) (s : State) : (andA m s).ppu = s.ppu := rfl
@[simp] theorem andA_apu (m : Byte) (s : State) : (andA m s).apu = s.apu := rfl
@[simp] theorem andA_params (m : Byte) (s : State) : (andA m s).params = s.params := rfl
@[simp] theorem andA_resetReq (m : Byte) (s : State) : (andA m s).resetReq = s.resetReq := rfl
@[simp] theorem andA_stopReq (m : Byte) (s : State) : (andA m s).stopReq = s.stopReq := rfl
@[simp] theorem andA_joypadReads (m : Byte) (s : State) : (andA m s).joypadReads = s.joypadReads := rfl
@[simp] theorem andA_events (m : Byte) (s : State) : (andA m s).events = s.events := rfl
@[simp] theorem andA_memByte (m : Byte) (s : State) (k : Word) : (andA m s).memByte k = s.memByte k := rfl

@[simp] theorem orA_x (m : Byte) (s : State) : (orA m s).x = s.x := rfl
@[simp] theorem orA_y (m : Byte) (s : State) : (orA m s).y = s.y := rfl
@[simp] theorem orA_sp (m : Byte) (s : State) : (orA m s).sp = s.sp := rfl
@[simp] theorem orA_pc (m : Byte) (s : State) : (orA m s).pc = s.pc := rfl
@[simp] theorem orA_cyc (m : Byte) (s : State) : (orA m s).cyc = s.cyc := rfl
@[simp] theorem orA_halted (m : Byte) (s : State) : (orA m s).halted = s.halted := rfl
@[simp] theorem orA_fault (m : Byte) (s : State) : (orA m s).fault = s.fault := rfl
@[simp] theorem orA_dmaStall (m : Byte) (s : State) : (orA m s).dmaStall = s.dmaStall := rfl
@[simp] theorem orA_stepCycles (m : Byte) (s : State) : (orA m s).stepCycles = s.stepCycles := rfl
@[simp] theorem orA_ram (m : Byte) (s : State) : (orA m s).ram = s.ram := rfl
@[simp] theorem orA_nmiPrev (m : Byte) (s : State) : (orA m s).nmiPrev = s.nmiPrev := rfl
@[simp] theorem orA_ppu (m : Byte) (s : State) : (orA m s).ppu = s.ppu := rfl
@[simp] theorem orA_apu (m : Byte) (s : State) : (orA m s).apu = s.apu := rfl
@[simp] theorem orA_params (m : Byte) (s : State) : (orA m s).params = s.params := rfl
@[simp] theorem orA_resetReq (m : Byte) (s : State) : (orA m s).resetReq = s.resetReq := rfl
@[simp] theorem orA_stopReq (m : Byte) (s : State) : (orA m s).stopReq = s.stopReq := rfl
@[simp] theorem orA_joypadReads (m : Byte) (s : State) : (orA m s).joypadReads = s.joypadReads := rfl
@[simp] theorem orA_events (m : Byte) (s : State) : (orA m s).events = s.events := rfl
@[simp] theorem orA_memByte (m : Byte) (s : State) (k : Word) : (orA m s).memByte k = s.memByte k := rfl

@[simp] theorem eorA_x (m : Byte) (s : State) : (eorA m s).x = s.x := rfl
@[simp] theorem eorA_y (m : Byte) (s : State) : (eorA m s).y = s.y := rfl
@[simp] theorem eorA_sp (m : Byte) (s : State) : (eorA m s).sp = s.sp := rfl
@[simp] theorem eorA_pc (m : Byte) (s : State) : (eorA m s).pc = s.pc := rfl
@[simp] theorem eorA_cyc (m : Byte) (s : State) : (eorA m s).cyc = s.cyc := rfl
@[simp] theorem eorA_halted (m : Byte) (s : State) : (eorA m s).halted = s.halted := rfl
@[simp] theorem eorA_fault (m : Byte) (s : State) : (eorA m s).fault = s.fault := rfl
@[simp] theorem eorA_dmaStall (m : Byte) (s : State) : (eorA m s).dmaStall = s.dmaStall := rfl
@[simp] theorem eorA_stepCycles (m : Byte) (s : State) : (eorA m s).stepCycles = s.stepCycles := rfl
@[simp] theorem eorA_ram (m : Byte) (s : State) : (eorA m s).ram = s.ram := rfl
@[simp] theorem eorA_nmiPrev (m : Byte) (s : State) : (eorA m s).nmiPrev = s.nmiPrev := rfl
@[simp] theorem eorA_ppu (m : Byte) (s : State) : (eorA m s).ppu = s.ppu := rfl
@[simp] theorem eorA_apu (m : Byte) (s : State) : (eorA m s).apu = s.apu := rfl
@[simp] theorem eorA_params (m : Byte) (s : State) : (eorA m s).params = s.params := rfl
@[simp] theorem eorA_resetReq (m : Byte) (s : State) : (eorA m s).resetReq = s.resetReq := rfl
@[simp] theorem eorA_stopReq (m : Byte) (s : State) : (eorA m s).stopReq = s.stopReq := rfl
@[simp] theorem eorA_joypadReads (m : Byte) (s : State) : (eorA m s).joypadReads = s.joypadReads := rfl
@[simp] theorem eorA_events (m : Byte) (s : State) : (eorA m s).events = s.events := rfl
@[simp] theorem eorA_memByte (m : Byte) (s : State) (k : Word) : (eorA m s).memByte k = s.memByte k := rfl

@[simp] theorem compareA_a (m : Byte) (s : State) : (compareA m s).a = s.a := rfl
@[simp] theorem compareA_x (m : Byte) (s : State) : (compareA m s).x = s.x := rfl
@[simp] theorem compareA_y (m : Byte) (s : State) : (compareA m s).y = s.y := rfl
@[simp] theorem compareA_sp (m : Byte) (s : State) : (compareA m s).sp = s.sp := rfl
@[simp] theorem compareA_pc (m : Byte) (s : State) : (compareA m s).pc = s.pc := rfl
@[simp] theorem compareA_cyc (m : Byte) (s : State) : (compareA m s).cyc = s.cyc := rfl
@[simp] theorem compareA_halted (m : Byte) (s : State) : (compareA m s).halted = s.halted := rfl
@[simp] theorem compareA_fault (m : Byte) (s : State) : (compareA m s).fault = s.fault := rfl
@[simp] theorem compareA_dmaStall (m : Byte) (s : State) : (compareA m s).dmaStall = s.dmaStall := rfl
@[simp] theorem compareA_stepCycles (m : Byte) (s : State) : (compareA m s).stepCycles = s.stepCycles := rfl
@[simp] theorem compareA_ram (m : Byte) (s : State) : (compareA m s).ram = s.ram := rfl
@[simp] theorem compareA_nmiPrev (m : Byte) (s : State) : (compareA m s).nmiPrev = s.nmiPrev := rfl
@[simp] theorem compareA_ppu (m : Byte) (s : State) : (compareA m s).ppu = s.ppu := rfl
@[simp] theorem compareA_apu (m : Byte) (s : State) : (compareA m s).apu = s.apu := rfl
@[simp] theorem compareA_params (m : Byte) (s : State) : (compareA m s).params = s.params := rfl
@[simp] theorem compareA_resetReq (m : Byte) (s : State) : (compareA m s).resetReq = s.resetReq := rfl
@[simp] theorem compareA_stopReq (m : Byte) (s : State) : (compareA m s).stopReq = s.stopReq := rfl
@[simp] theorem compareA_joypadReads (m : Byte) (s : State) : (compareA m s).joypadReads = s.joypadReads := rfl
@[simp] theorem compareA_events (m : Byte) (s : State) : (compareA m s).events = s.events := rfl
@[simp] theorem compareA_memByte (m : Byte) (s : State) (k : Word) : (compareA m s).memByte k = s.memByte k := rfl

@[simp] theorem compareX_a (m : Byte) (s : State) : (compareX m s).a = s.a := rfl
@[simp] theorem compareX_x (m : Byte) (s : State) : (compareX m s).x = s.x := rfl
@[simp] theorem compareX_y (m : Byte) (s : State) : (compareX m s).y = s.y := rfl
@[simp] theorem compareX_sp (m : Byte) (s : State) : (compareX m s).sp = s.sp := rfl
@[simp] theorem compareX_pc (m : Byte) (s : State) : (compareX m s).pc = s.pc := rfl
@[simp] theorem compareX_cyc (m : Byte) (s : State) : (compareX m s).cyc = s.cyc := rfl
@[simp] theorem compareX_halted (m : Byte) (s : State) : (compareX m s).halted = s.halted := rfl
@[simp] theorem compareX_fault (m : Byte) (s : State) : (compareX m s).fault = s.fault := rfl
@[simp] theorem compareX_dmaStall (m : Byte) (s : State) : (compareX m s).dmaStall = s.dmaStall := rfl
@[simp] theorem compareX_stepCycles (m : Byte) (s : State) : (compareX m s).stepCycles = s.stepCycles := rfl
@[simp] theorem compareX_ram (m : Byte) (s : State) : (compareX m s).ram = s.ram := rfl
@[simp] theorem compareX_nmiPrev (m : Byte) (s : State) : (compareX m s).nmiPrev = s.nmiPrev := rfl
@[simp] theorem compareX_ppu (m : Byte) (s : State) : (compareX m s).ppu = s.ppu := rfl
@[simp] theorem compareX_apu (m : Byte) (s : State) : (compareX m s).apu = s.apu := rfl
@[simp] theorem compareX_params (m : Byte) (s : State) : (compareX m s).params = s.params := rfl
@[simp] theorem compareX_resetReq (m : Byte) (s : State) : (compareX m s).resetReq = s.resetReq := rfl
@[simp] theorem compareX_stopReq (m : Byte) (s : State) : (compareX m s).stopReq = s.stopReq := rfl
@[simp] theorem compareX_joypadReads (m : Byte) (s : State) : (compareX m s).joypadReads = s.joypadReads := rfl
@[simp] theorem compareX_events (m : Byte) (s : State) : (compareX m s).events = s.events := rfl
@[simp] theorem compareX_memByte (m : Byte) (s : State) (k : Word) : (compareX m s).memByte k = s.memByte k := rfl

@[simp] theorem compareY_a (m : Byte) (s : State) : (compareY m s).a = s.a := rfl
@[simp] theorem compareY_x (m : Byte) (s : State) : (compareY m s).x = s.x := rfl
@[simp] theorem compareY_y (m : Byte) (s : State) : (compareY m s).y = s.y := rfl
@[simp] theorem compareY_sp (m : Byte) (s : State) : (compareY m s).sp = s.sp := rfl
@[simp] theorem compareY_pc (m : Byte) (s : State) : (compareY m s).pc = s.pc := rfl
@[simp] theorem compareY_cyc (m : Byte) (s : State) : (compareY m s).cyc = s.cyc := rfl
@[simp] theorem compareY_halted (m : Byte) (s : State) : (compareY m s).halted = s.halted := rfl
@[simp] theorem compareY_fault (m : Byte) (s : State) : (compareY m s).fault = s.fault := rfl
@[simp] theorem compareY_dmaStall (m : Byte) (s : State) : (compareY m s).dmaStall = s.dmaStall := rfl
@[simp] theorem compareY_stepCycles (m : Byte) (s : State) : (compareY m s).stepCycles = s.stepCycles := rfl
@[simp] theorem compareY_ram (m : Byte) (s : State) : (compareY m s).ram = s.ram := rfl
@[simp] theorem compareY_nmiPrev (m : Byte) (s : State) : (compareY m s).nmiPrev = s.nmiPrev := rfl
@[simp] theorem compareY_ppu (m : Byte) (s : State) : (compareY m s).ppu = s.ppu := rfl
@[simp] theorem compareY_apu (m : Byte) (s : State) : (compareY m s).apu = s.apu := rfl
@[simp] theorem compareY_params (m : Byte) (s : State) : (compareY m s).params = s.params := rfl
@[simp] theorem compareY_resetReq (m : Byte) (s : State) : (compareY m s).resetReq = s.resetReq := rfl
@[simp] theorem compareY_stopReq (m : Byte) (s : State) : (compareY m s).stopReq = s.stopReq := rfl
@[simp] theorem compareY_joypadReads (m : Byte) (s : State) : (compareY m s).joypadReads = s.joypadReads := rfl
@[simp] theorem compareY_events (m : Byte) (s : State) : (compareY m s).events = s.events := rfl
@[simp] theorem compareY_memByte (m : Byte) (s : State) (k : Word) : (compareY m s).memByte k = s.memByte k := rfl

@[simp] theorem testA_a (m : Byte) (s : State) : (testA m s).a = s.a := rfl
@[simp] theorem testA_x (m : Byte) (s : State) : (testA m s).x = s.x := rfl
@[simp] theorem testA_y (m : Byte) (s : State) : (testA m s).y = s.y := rfl
@[simp] theorem testA_sp (m : Byte) (s : State) : (testA m s).sp = s.sp := rfl
@[simp] theorem testA_pc (m : Byte) (s : State) : (testA m s).pc = s.pc := rfl
@[simp] theorem testA_cyc (m : Byte) (s : State) : (testA m s).cyc = s.cyc := rfl
@[simp] theorem testA_halted (m : Byte) (s : State) : (testA m s).halted = s.halted := rfl
@[simp] theorem testA_fault (m : Byte) (s : State) : (testA m s).fault = s.fault := rfl
@[simp] theorem testA_dmaStall (m : Byte) (s : State) : (testA m s).dmaStall = s.dmaStall := rfl
@[simp] theorem testA_stepCycles (m : Byte) (s : State) : (testA m s).stepCycles = s.stepCycles := rfl
@[simp] theorem testA_ram (m : Byte) (s : State) : (testA m s).ram = s.ram := rfl
@[simp] theorem testA_nmiPrev (m : Byte) (s : State) : (testA m s).nmiPrev = s.nmiPrev := rfl
@[simp] theorem testA_ppu (m : Byte) (s : State) : (testA m s).ppu = s.ppu := rfl
@[simp] theorem testA_apu (m : Byte) (s : State) : (testA m s).apu = s.apu := rfl
@[simp] theorem testA_params (m : Byte) (s : State) : (testA m s).params = s.params := rfl
@[simp] theorem testA_resetReq (m : Byte) (s : State) : (testA m s).resetReq = s.resetReq := rfl
@[simp] theorem testA_stopReq (m : Byte) (s : State) : (testA m s).stopReq = s.stopReq := rfl
@[simp] theorem testA_joypadReads (m : Byte) (s : State) : (testA m s).joypadReads = s.joypadReads := rfl
@[simp] theorem testA_events (m : Byte) (s : State) : (testA m s).events = s.events := rfl
@[simp] theorem testA_memByte (m : Byte) (s : State) (k : Word) : (testA m s).memByte k = s.memByte k := rfl

end Sys2Proof.Machine
end

