-- ==== Sys2Proof/Laws/PerInstr.lean ====
section
/-! SUPPORT. What holds of every instruction as a term: one lemma per constructor. -/

namespace Sys2Proof.Laws

/-- Decoding the bytes of `i`, followed by any others, gives `i` back and leaves the others (R130, R148). -/
def DecodeEncode.Statement (i : Instr) : Prop :=
  i.wellFormed = true ∧ (encode i).length = i.length ∧ ∀ rest, decode (encode i ++ rest) = .ok i rest

/-- A 16-bit word is the pair of its two bytes. -/
theorem word_hiByte_loByte (w : Word) : Machine.word (Machine.hiByte w) (Machine.loByte w) = w := by
  simp only [Machine.word, Machine.hiByte, Machine.loByte]
  ext i hi
  simp only [BitVec.getElem_append, BitVec.getElem_extractLsb']
  split <;> simp_all [BitVec.getLsbD_eq_getElem]

/-- Decoding a three-byte instruction reads the word back. -/
theorem decode_f3 (op : Byte) (build : Word → Instr) (h : lookup op = .f3 build) (w : Word) (rest : List Byte) :
    decode ([op, Machine.loByte w, Machine.hiByte w] ++ rest) = .ok (build w) rest := by
  simp [decode, h, word_hiByte_loByte]

theorem DecodeEncode.ldaIndX (d : Byte) : DecodeEncode.Statement (.ldaIndX d) := ⟨rfl, rfl, fun _ => rfl⟩
theorem DecodeEncode.ldaZp (d : Byte) : DecodeEncode.Statement (.ldaZp d) := ⟨rfl, rfl, fun _ => rfl⟩
theorem DecodeEncode.ldaImm (v : Byte) : DecodeEncode.Statement (.ldaImm v) := ⟨rfl, rfl, fun _ => rfl⟩
theorem DecodeEncode.ldaAbs (a : Word) : DecodeEncode.Statement (.ldaAbs a) := ⟨rfl, rfl, decode_f3 _ _ rfl a⟩
theorem DecodeEncode.ldaIndY (d : Byte) : DecodeEncode.Statement (.ldaIndY d) := ⟨rfl, rfl, fun _ => rfl⟩
theorem DecodeEncode.ldaZpX (d : Byte) : DecodeEncode.Statement (.ldaZpX d) := ⟨rfl, rfl, fun _ => rfl⟩
theorem DecodeEncode.ldaAbsY (base : Word) : DecodeEncode.Statement (.ldaAbsY base) := ⟨rfl, rfl, decode_f3 _ _ rfl base⟩
theorem DecodeEncode.ldaAbsX (base : Word) : DecodeEncode.Statement (.ldaAbsX base) := ⟨rfl, rfl, decode_f3 _ _ rfl base⟩
theorem DecodeEncode.ldxImm (v : Byte) : DecodeEncode.Statement (.ldxImm v) := ⟨rfl, rfl, fun _ => rfl⟩
theorem DecodeEncode.ldxZp (d : Byte) : DecodeEncode.Statement (.ldxZp d) := ⟨rfl, rfl, fun _ => rfl⟩
theorem DecodeEncode.ldxAbs (a : Word) : DecodeEncode.Statement (.ldxAbs a) := ⟨rfl, rfl, decode_f3 _ _ rfl a⟩
theorem DecodeEncode.ldxZpY (d : Byte) : DecodeEncode.Statement (.ldxZpY d) := ⟨rfl, rfl, fun _ => rfl⟩
theorem DecodeEncode.ldxAbsY (base : Word) : DecodeEncode.Statement (.ldxAbsY base) := ⟨rfl, rfl, decode_f3 _ _ rfl base⟩
theorem DecodeEncode.ldyImm (v : Byte) : DecodeEncode.Statement (.ldyImm v) := ⟨rfl, rfl, fun _ => rfl⟩
theorem DecodeEncode.ldyZp (d : Byte) : DecodeEncode.Statement (.ldyZp d) := ⟨rfl, rfl, fun _ => rfl⟩
theorem DecodeEncode.ldyAbs (a : Word) : DecodeEncode.Statement (.ldyAbs a) := ⟨rfl, rfl, decode_f3 _ _ rfl a⟩
theorem DecodeEncode.ldyZpX (d : Byte) : DecodeEncode.Statement (.ldyZpX d) := ⟨rfl, rfl, fun _ => rfl⟩
theorem DecodeEncode.ldyAbsX (base : Word) : DecodeEncode.Statement (.ldyAbsX base) := ⟨rfl, rfl, decode_f3 _ _ rfl base⟩
theorem DecodeEncode.staIndX (d : Byte) : DecodeEncode.Statement (.staIndX d) := ⟨rfl, rfl, fun _ => rfl⟩
theorem DecodeEncode.staZp (d : Byte) : DecodeEncode.Statement (.staZp d) := ⟨rfl, rfl, fun _ => rfl⟩
theorem DecodeEncode.staAbs (a : Word) : DecodeEncode.Statement (.staAbs a) := ⟨rfl, rfl, decode_f3 _ _ rfl a⟩
theorem DecodeEncode.staIndY (d : Byte) : DecodeEncode.Statement (.staIndY d) := ⟨rfl, rfl, fun _ => rfl⟩
theorem DecodeEncode.staZpX (d : Byte) : DecodeEncode.Statement (.staZpX d) := ⟨rfl, rfl, fun _ => rfl⟩
theorem DecodeEncode.staAbsY (base : Word) : DecodeEncode.Statement (.staAbsY base) := ⟨rfl, rfl, decode_f3 _ _ rfl base⟩
theorem DecodeEncode.staAbsX (base : Word) : DecodeEncode.Statement (.staAbsX base) := ⟨rfl, rfl, decode_f3 _ _ rfl base⟩
theorem DecodeEncode.stxZp (d : Byte) : DecodeEncode.Statement (.stxZp d) := ⟨rfl, rfl, fun _ => rfl⟩
theorem DecodeEncode.stxAbs (a : Word) : DecodeEncode.Statement (.stxAbs a) := ⟨rfl, rfl, decode_f3 _ _ rfl a⟩
theorem DecodeEncode.stxZpY (d : Byte) : DecodeEncode.Statement (.stxZpY d) := ⟨rfl, rfl, fun _ => rfl⟩
theorem DecodeEncode.styZp (d : Byte) : DecodeEncode.Statement (.styZp d) := ⟨rfl, rfl, fun _ => rfl⟩
theorem DecodeEncode.styAbs (a : Word) : DecodeEncode.Statement (.styAbs a) := ⟨rfl, rfl, decode_f3 _ _ rfl a⟩
theorem DecodeEncode.styZpX (d : Byte) : DecodeEncode.Statement (.styZpX d) := ⟨rfl, rfl, fun _ => rfl⟩
theorem DecodeEncode.tax : DecodeEncode.Statement .tax := ⟨rfl, rfl, fun _ => rfl⟩
theorem DecodeEncode.tay : DecodeEncode.Statement .tay := ⟨rfl, rfl, fun _ => rfl⟩
theorem DecodeEncode.txa : DecodeEncode.Statement .txa := ⟨rfl, rfl, fun _ => rfl⟩
theorem DecodeEncode.tya : DecodeEncode.Statement .tya := ⟨rfl, rfl, fun _ => rfl⟩
theorem DecodeEncode.tsx : DecodeEncode.Statement .tsx := ⟨rfl, rfl, fun _ => rfl⟩
theorem DecodeEncode.txs : DecodeEncode.Statement .txs := ⟨rfl, rfl, fun _ => rfl⟩
theorem DecodeEncode.adcIndX (d : Byte) : DecodeEncode.Statement (.adcIndX d) := ⟨rfl, rfl, fun _ => rfl⟩
theorem DecodeEncode.adcZp (d : Byte) : DecodeEncode.Statement (.adcZp d) := ⟨rfl, rfl, fun _ => rfl⟩
theorem DecodeEncode.adcImm (v : Byte) : DecodeEncode.Statement (.adcImm v) := ⟨rfl, rfl, fun _ => rfl⟩
theorem DecodeEncode.adcAbs (a : Word) : DecodeEncode.Statement (.adcAbs a) := ⟨rfl, rfl, decode_f3 _ _ rfl a⟩
theorem DecodeEncode.adcIndY (d : Byte) : DecodeEncode.Statement (.adcIndY d) := ⟨rfl, rfl, fun _ => rfl⟩
theorem DecodeEncode.adcZpX (d : Byte) : DecodeEncode.Statement (.adcZpX d) := ⟨rfl, rfl, fun _ => rfl⟩
theorem DecodeEncode.adcAbsY (base : Word) : DecodeEncode.Statement (.adcAbsY base) := ⟨rfl, rfl, decode_f3 _ _ rfl base⟩
theorem DecodeEncode.adcAbsX (base : Word) : DecodeEncode.Statement (.adcAbsX base) := ⟨rfl, rfl, decode_f3 _ _ rfl base⟩
theorem DecodeEncode.sbcIndX (d : Byte) : DecodeEncode.Statement (.sbcIndX d) := ⟨rfl, rfl, fun _ => rfl⟩
theorem DecodeEncode.sbcZp (d : Byte) : DecodeEncode.Statement (.sbcZp d) := ⟨rfl, rfl, fun _ => rfl⟩
theorem DecodeEncode.sbcImm (v : Byte) : DecodeEncode.Statement (.sbcImm v) := ⟨rfl, rfl, fun _ => rfl⟩
theorem DecodeEncode.sbcAbs (a : Word) : DecodeEncode.Statement (.sbcAbs a) := ⟨rfl, rfl, decode_f3 _ _ rfl a⟩
theorem DecodeEncode.sbcIndY (d : Byte) : DecodeEncode.Statement (.sbcIndY d) := ⟨rfl, rfl, fun _ => rfl⟩
theorem DecodeEncode.sbcZpX (d : Byte) : DecodeEncode.Statement (.sbcZpX d) := ⟨rfl, rfl, fun _ => rfl⟩
theorem DecodeEncode.sbcAbsY (base : Word) : DecodeEncode.Statement (.sbcAbsY base) := ⟨rfl, rfl, decode_f3 _ _ rfl base⟩
theorem DecodeEncode.sbcAbsX (base : Word) : DecodeEncode.Statement (.sbcAbsX base) := ⟨rfl, rfl, decode_f3 _ _ rfl base⟩
theorem DecodeEncode.andIndX (d : Byte) : DecodeEncode.Statement (.andIndX d) := ⟨rfl, rfl, fun _ => rfl⟩
theorem DecodeEncode.andZp (d : Byte) : DecodeEncode.Statement (.andZp d) := ⟨rfl, rfl, fun _ => rfl⟩
theorem DecodeEncode.andImm (v : Byte) : DecodeEncode.Statement (.andImm v) := ⟨rfl, rfl, fun _ => rfl⟩
theorem DecodeEncode.andAbs (a : Word) : DecodeEncode.Statement (.andAbs a) := ⟨rfl, rfl, decode_f3 _ _ rfl a⟩
theorem DecodeEncode.andIndY (d : Byte) : DecodeEncode.Statement (.andIndY d) := ⟨rfl, rfl, fun _ => rfl⟩
theorem DecodeEncode.andZpX (d : Byte) : DecodeEncode.Statement (.andZpX d) := ⟨rfl, rfl, fun _ => rfl⟩
theorem DecodeEncode.andAbsY (base : Word) : DecodeEncode.Statement (.andAbsY base) := ⟨rfl, rfl, decode_f3 _ _ rfl base⟩
theorem DecodeEncode.andAbsX (base : Word) : DecodeEncode.Statement (.andAbsX base) := ⟨rfl, rfl, decode_f3 _ _ rfl base⟩
theorem DecodeEncode.oraIndX (d : Byte) : DecodeEncode.Statement (.oraIndX d) := ⟨rfl, rfl, fun _ => rfl⟩
theorem DecodeEncode.oraZp (d : Byte) : DecodeEncode.Statement (.oraZp d) := ⟨rfl, rfl, fun _ => rfl⟩
theorem DecodeEncode.oraImm (v : Byte) : DecodeEncode.Statement (.oraImm v) := ⟨rfl, rfl, fun _ => rfl⟩
theorem DecodeEncode.oraAbs (a : Word) : DecodeEncode.Statement (.oraAbs a) := ⟨rfl, rfl, decode_f3 _ _ rfl a⟩
theorem DecodeEncode.oraIndY (d : Byte) : DecodeEncode.Statement (.oraIndY d) := ⟨rfl, rfl, fun _ => rfl⟩
theorem DecodeEncode.oraZpX (d : Byte) : DecodeEncode.Statement (.oraZpX d) := ⟨rfl, rfl, fun _ => rfl⟩
theorem DecodeEncode.oraAbsY (base : Word) : DecodeEncode.Statement (.oraAbsY base) := ⟨rfl, rfl, decode_f3 _ _ rfl base⟩
theorem DecodeEncode.oraAbsX (base : Word) : DecodeEncode.Statement (.oraAbsX base) := ⟨rfl, rfl, decode_f3 _ _ rfl base⟩
theorem DecodeEncode.eorIndX (d : Byte) : DecodeEncode.Statement (.eorIndX d) := ⟨rfl, rfl, fun _ => rfl⟩
theorem DecodeEncode.eorZp (d : Byte) : DecodeEncode.Statement (.eorZp d) := ⟨rfl, rfl, fun _ => rfl⟩
theorem DecodeEncode.eorImm (v : Byte) : DecodeEncode.Statement (.eorImm v) := ⟨rfl, rfl, fun _ => rfl⟩
theorem DecodeEncode.eorAbs (a : Word) : DecodeEncode.Statement (.eorAbs a) := ⟨rfl, rfl, decode_f3 _ _ rfl a⟩
theorem DecodeEncode.eorIndY (d : Byte) : DecodeEncode.Statement (.eorIndY d) := ⟨rfl, rfl, fun _ => rfl⟩
theorem DecodeEncode.eorZpX (d : Byte) : DecodeEncode.Statement (.eorZpX d) := ⟨rfl, rfl, fun _ => rfl⟩
theorem DecodeEncode.eorAbsY (base : Word) : DecodeEncode.Statement (.eorAbsY base) := ⟨rfl, rfl, decode_f3 _ _ rfl base⟩
theorem DecodeEncode.eorAbsX (base : Word) : DecodeEncode.Statement (.eorAbsX base) := ⟨rfl, rfl, decode_f3 _ _ rfl base⟩
theorem DecodeEncode.cmpIndX (d : Byte) : DecodeEncode.Statement (.cmpIndX d) := ⟨rfl, rfl, fun _ => rfl⟩
theorem DecodeEncode.cmpZp (d : Byte) : DecodeEncode.Statement (.cmpZp d) := ⟨rfl, rfl, fun _ => rfl⟩
theorem DecodeEncode.cmpImm (v : Byte) : DecodeEncode.Statement (.cmpImm v) := ⟨rfl, rfl, fun _ => rfl⟩
theorem DecodeEncode.cmpAbs (a : Word) : DecodeEncode.Statement (.cmpAbs a) := ⟨rfl, rfl, decode_f3 _ _ rfl a⟩
theorem DecodeEncode.cmpIndY (d : Byte) : DecodeEncode.Statement (.cmpIndY d) := ⟨rfl, rfl, fun _ => rfl⟩
theorem DecodeEncode.cmpZpX (d : Byte) : DecodeEncode.Statement (.cmpZpX d) := ⟨rfl, rfl, fun _ => rfl⟩
theorem DecodeEncode.cmpAbsY (base : Word) : DecodeEncode.Statement (.cmpAbsY base) := ⟨rfl, rfl, decode_f3 _ _ rfl base⟩
theorem DecodeEncode.cmpAbsX (base : Word) : DecodeEncode.Statement (.cmpAbsX base) := ⟨rfl, rfl, decode_f3 _ _ rfl base⟩
theorem DecodeEncode.cpxImm (v : Byte) : DecodeEncode.Statement (.cpxImm v) := ⟨rfl, rfl, fun _ => rfl⟩
theorem DecodeEncode.cpxZp (d : Byte) : DecodeEncode.Statement (.cpxZp d) := ⟨rfl, rfl, fun _ => rfl⟩
theorem DecodeEncode.cpxAbs (a : Word) : DecodeEncode.Statement (.cpxAbs a) := ⟨rfl, rfl, decode_f3 _ _ rfl a⟩
theorem DecodeEncode.cpyImm (v : Byte) : DecodeEncode.Statement (.cpyImm v) := ⟨rfl, rfl, fun _ => rfl⟩
theorem DecodeEncode.cpyZp (d : Byte) : DecodeEncode.Statement (.cpyZp d) := ⟨rfl, rfl, fun _ => rfl⟩
theorem DecodeEncode.cpyAbs (a : Word) : DecodeEncode.Statement (.cpyAbs a) := ⟨rfl, rfl, decode_f3 _ _ rfl a⟩
theorem DecodeEncode.bitZp (d : Byte) : DecodeEncode.Statement (.bitZp d) := ⟨rfl, rfl, fun _ => rfl⟩
theorem DecodeEncode.bitAbs (a : Word) : DecodeEncode.Statement (.bitAbs a) := ⟨rfl, rfl, decode_f3 _ _ rfl a⟩
theorem DecodeEncode.incZp (d : Byte) : DecodeEncode.Statement (.incZp d) := ⟨rfl, rfl, fun _ => rfl⟩
theorem DecodeEncode.incAbs (a : Word) : DecodeEncode.Statement (.incAbs a) := ⟨rfl, rfl, decode_f3 _ _ rfl a⟩
theorem DecodeEncode.incZpX (d : Byte) : DecodeEncode.Statement (.incZpX d) := ⟨rfl, rfl, fun _ => rfl⟩
theorem DecodeEncode.incAbsX (base : Word) : DecodeEncode.Statement (.incAbsX base) := ⟨rfl, rfl, decode_f3 _ _ rfl base⟩
theorem DecodeEncode.decZp (d : Byte) : DecodeEncode.Statement (.decZp d) := ⟨rfl, rfl, fun _ => rfl⟩
theorem DecodeEncode.decAbs (a : Word) : DecodeEncode.Statement (.decAbs a) := ⟨rfl, rfl, decode_f3 _ _ rfl a⟩
theorem DecodeEncode.decZpX (d : Byte) : DecodeEncode.Statement (.decZpX d) := ⟨rfl, rfl, fun _ => rfl⟩
theorem DecodeEncode.decAbsX (base : Word) : DecodeEncode.Statement (.decAbsX base) := ⟨rfl, rfl, decode_f3 _ _ rfl base⟩
theorem DecodeEncode.inx : DecodeEncode.Statement .inx := ⟨rfl, rfl, fun _ => rfl⟩
theorem DecodeEncode.iny : DecodeEncode.Statement .iny := ⟨rfl, rfl, fun _ => rfl⟩
theorem DecodeEncode.dex : DecodeEncode.Statement .dex := ⟨rfl, rfl, fun _ => rfl⟩
theorem DecodeEncode.dey : DecodeEncode.Statement .dey := ⟨rfl, rfl, fun _ => rfl⟩
theorem DecodeEncode.aslZp (d : Byte) : DecodeEncode.Statement (.aslZp d) := ⟨rfl, rfl, fun _ => rfl⟩
theorem DecodeEncode.aslA : DecodeEncode.Statement .aslA := ⟨rfl, rfl, fun _ => rfl⟩
theorem DecodeEncode.aslAbs (a : Word) : DecodeEncode.Statement (.aslAbs a) := ⟨rfl, rfl, decode_f3 _ _ rfl a⟩
theorem DecodeEncode.aslZpX (d : Byte) : DecodeEncode.Statement (.aslZpX d) := ⟨rfl, rfl, fun _ => rfl⟩
theorem DecodeEncode.aslAbsX (base : Word) : DecodeEncode.Statement (.aslAbsX base) := ⟨rfl, rfl, decode_f3 _ _ rfl base⟩
theorem DecodeEncode.lsrZp (d : Byte) : DecodeEncode.Statement (.lsrZp d) := ⟨rfl, rfl, fun _ => rfl⟩
theorem DecodeEncode.lsrA : DecodeEncode.Statement .lsrA := ⟨rfl, rfl, fun _ => rfl⟩
theorem DecodeEncode.lsrAbs (a : Word) : DecodeEncode.Statement (.lsrAbs a) := ⟨rfl, rfl, decode_f3 _ _ rfl a⟩
theorem DecodeEncode.lsrZpX (d : Byte) : DecodeEncode.Statement (.lsrZpX d) := ⟨rfl, rfl, fun _ => rfl⟩
theorem DecodeEncode.lsrAbsX (base : Word) : DecodeEncode.Statement (.lsrAbsX base) := ⟨rfl, rfl, decode_f3 _ _ rfl base⟩
theorem DecodeEncode.rolZp (d : Byte) : DecodeEncode.Statement (.rolZp d) := ⟨rfl, rfl, fun _ => rfl⟩
theorem DecodeEncode.rolA : DecodeEncode.Statement .rolA := ⟨rfl, rfl, fun _ => rfl⟩
theorem DecodeEncode.rolAbs (a : Word) : DecodeEncode.Statement (.rolAbs a) := ⟨rfl, rfl, decode_f3 _ _ rfl a⟩
theorem DecodeEncode.rolZpX (d : Byte) : DecodeEncode.Statement (.rolZpX d) := ⟨rfl, rfl, fun _ => rfl⟩
theorem DecodeEncode.rolAbsX (base : Word) : DecodeEncode.Statement (.rolAbsX base) := ⟨rfl, rfl, decode_f3 _ _ rfl base⟩
theorem DecodeEncode.rorZp (d : Byte) : DecodeEncode.Statement (.rorZp d) := ⟨rfl, rfl, fun _ => rfl⟩
theorem DecodeEncode.rorA : DecodeEncode.Statement .rorA := ⟨rfl, rfl, fun _ => rfl⟩
theorem DecodeEncode.rorAbs (a : Word) : DecodeEncode.Statement (.rorAbs a) := ⟨rfl, rfl, decode_f3 _ _ rfl a⟩
theorem DecodeEncode.rorZpX (d : Byte) : DecodeEncode.Statement (.rorZpX d) := ⟨rfl, rfl, fun _ => rfl⟩
theorem DecodeEncode.rorAbsX (base : Word) : DecodeEncode.Statement (.rorAbsX base) := ⟨rfl, rfl, decode_f3 _ _ rfl base⟩
theorem DecodeEncode.jmpAbs (target : Word) : DecodeEncode.Statement (.jmpAbs target) := ⟨rfl, rfl, decode_f3 _ _ rfl target⟩
theorem DecodeEncode.jmpInd (ptr : Word) : DecodeEncode.Statement (.jmpInd ptr) := ⟨rfl, rfl, decode_f3 _ _ rfl ptr⟩
theorem DecodeEncode.jsrAbs (target : Word) : DecodeEncode.Statement (.jsrAbs target) := ⟨rfl, rfl, decode_f3 _ _ rfl target⟩
theorem DecodeEncode.rts : DecodeEncode.Statement .rts := ⟨rfl, rfl, fun _ => rfl⟩
theorem DecodeEncode.rti : DecodeEncode.Statement .rti := ⟨rfl, rfl, fun _ => rfl⟩
theorem DecodeEncode.brk : DecodeEncode.Statement .brk := ⟨rfl, rfl, fun _ => rfl⟩
theorem DecodeEncode.nop : DecodeEncode.Statement .nop := ⟨rfl, rfl, fun _ => rfl⟩
theorem DecodeEncode.bcc (off : Byte) : DecodeEncode.Statement (.bcc off) := ⟨rfl, rfl, fun _ => rfl⟩
theorem DecodeEncode.bcs (off : Byte) : DecodeEncode.Statement (.bcs off) := ⟨rfl, rfl, fun _ => rfl⟩
theorem DecodeEncode.beq (off : Byte) : DecodeEncode.Statement (.beq off) := ⟨rfl, rfl, fun _ => rfl⟩
theorem DecodeEncode.bne (off : Byte) : DecodeEncode.Statement (.bne off) := ⟨rfl, rfl, fun _ => rfl⟩
theorem DecodeEncode.bmi (off : Byte) : DecodeEncode.Statement (.bmi off) := ⟨rfl, rfl, fun _ => rfl⟩
theorem DecodeEncode.bpl (off : Byte) : DecodeEncode.Statement (.bpl off) := ⟨rfl, rfl, fun _ => rfl⟩
theorem DecodeEncode.bvc (off : Byte) : DecodeEncode.Statement (.bvc off) := ⟨rfl, rfl, fun _ => rfl⟩
theorem DecodeEncode.bvs (off : Byte) : DecodeEncode.Statement (.bvs off) := ⟨rfl, rfl, fun _ => rfl⟩
theorem DecodeEncode.pha : DecodeEncode.Statement .pha := ⟨rfl, rfl, fun _ => rfl⟩
theorem DecodeEncode.php : DecodeEncode.Statement .php := ⟨rfl, rfl, fun _ => rfl⟩
theorem DecodeEncode.plp : DecodeEncode.Statement .plp := ⟨rfl, rfl, fun _ => rfl⟩
theorem DecodeEncode.pla : DecodeEncode.Statement .pla := ⟨rfl, rfl, fun _ => rfl⟩
theorem DecodeEncode.clc : DecodeEncode.Statement .clc := ⟨rfl, rfl, fun _ => rfl⟩
theorem DecodeEncode.sec : DecodeEncode.Statement .sec := ⟨rfl, rfl, fun _ => rfl⟩
theorem DecodeEncode.cli : DecodeEncode.Statement .cli := ⟨rfl, rfl, fun _ => rfl⟩
theorem DecodeEncode.sei : DecodeEncode.Statement .sei := ⟨rfl, rfl, fun _ => rfl⟩
theorem DecodeEncode.cld : DecodeEncode.Statement .cld := ⟨rfl, rfl, fun _ => rfl⟩
theorem DecodeEncode.sed : DecodeEncode.Statement .sed := ⟨rfl, rfl, fun _ => rfl⟩
theorem DecodeEncode.clv : DecodeEncode.Statement .clv := ⟨rfl, rfl, fun _ => rfl⟩

end Sys2Proof.Laws
end

