-- ==== Sys2Proof/Laws/Shapes.lean ====
section
/-! SUPPORT. What an instruction can do, said once: where `exec` answers a next state, that state has one of nine shapes, with the
effect each mnemonic has in it. A proof about all instructions is a proof about the nine shapes. -/

namespace Sys2Proof.Machine

/-- The effect of each read instruction. -/
inductive ReadEffect : Mnemonic → (Byte → State → State) → Prop where
  | lda : ReadEffect .lda loadA
  | ldx : ReadEffect .ldx loadX
  | ldy : ReadEffect .ldy loadY
  | adc : ReadEffect .adc addA
  | sbc : ReadEffect .sbc subA
  | and : ReadEffect .and andA
  | ora : ReadEffect .ora orA
  | eor : ReadEffect .eor eorA
  | cmp : ReadEffect .cmp compareA
  | cpx : ReadEffect .cpx compareX
  | cpy : ReadEffect .cpy compareY
  | bit : ReadEffect .bit testA

/-- What each store writes. -/
inductive Stored (s : State) : Mnemonic → Byte → Prop where
  | sta : Stored s .sta s.a
  | stx : Stored s .stx s.x
  | sty : Stored s .sty s.y

/-- The operation of each read-modify-write instruction. -/
inductive ModifyOp : Mnemonic → (Byte → Byte → Byte × Byte) → Prop where
  | inc : ModifyOp .inc incOp
  | dec : ModifyOp .dec decOp
  | asl : ModifyOp .asl aslOp
  | lsr : ModifyOp .lsr lsrOp
  | rol : ModifyOp .rol rolOp
  | ror : ModifyOp .ror rorOp

/-- The state that each one-byte instruction on registers, flags and the stack makes, before `PC` moves. -/
inductive Implied (s : State) : Mnemonic → State → Prop where
  | tax : Implied s .tax (loadX s.a s)
  | tay : Implied s .tay (loadY s.a s)
  | txa : Implied s .txa (loadA s.x s)
  | tya : Implied s .tya (loadA s.y s)
  | tsx : Implied s .tsx (loadX s.sp s)
  | txs : Implied s .txs (s.setSP s.x)
  | inx : Implied s .inx (loadX (s.x + 1) s)
  | iny : Implied s .iny (loadY (s.y + 1) s)
  | dex : Implied s .dex (loadX (s.x - 1) s)
  | dey : Implied s .dey (loadY (s.y - 1) s)
  | nop : Implied s .nop s
  | pha : Implied s .pha (push s.a s)
  | php : Implied s .php (push (pushedByInstruction s.p) s)
  | plp : Implied s .plp ((pop s).2.setP (loadedStatus (pop s).1))
  | pla : Implied s .pla (loadA (pop s).1 (pop s).2)
  | clc : Implied s .clc (s.setP (setFlag s.p .c false))
  | sec : Implied s .sec (s.setP (setFlag s.p .c true))
  | cli : Implied s .cli (s.setP (setFlag s.p .i false))
  | sei : Implied s .sei (s.setP (setFlag s.p .i true))
  | cld : Implied s .cld (s.setP (setFlag s.p .d false))
  | sed : Implied s .sed (s.setP (setFlag s.p .d true))
  | clv : Implied s .clv (s.setP (setFlag s.p .v false))

/-- The state that each jump makes, `PC` written. -/
inductive Jump (i : Instr) (s : State) : Mnemonic → State → Prop where
  | jmp : Jump i s .jmp ((operandOf i s).2.setPC (eaOf i s))
  | jsr : Jump i s .jsr ((push16 (s.pc + 2) s).setPC (operandWord i))
  | rts : Jump i s .rts ((pop16 s).2.setPC ((pop16 s).1 + 1))
  | rti : Jump i s .rti (returnFromInterrupt s)

/-- `w` at the end of an instruction that does not write `PC`. -/
def endAt (w : State) (len cycles : Nat) : State :=
  (w.setPC (w.pc + BitVec.ofNat 16 len)).setStepCycles (cycles + w.dmaStall)

/-- The shapes of the next state that `exec i s` answers. -/
inductive Shape (i : Instr) (s t : State) : Prop where
  | read (effect : Byte → State → State) (h : ReadEffect i.mnemonic effect)
      (e : t = endAt (effect (sourceOf i s).1 (sourceOf i s).2) (rowFor i).length ((rowFor i).cycles + penaltyOf i s))
  | store (v : Byte) (h : Stored s i.mnemonic v)
      (e : t = endAt (busWrite (eaOf i s) v (operandOf i s).2) (rowFor i).length (rowFor i).cycles)
  | modify (op : Byte → Byte → Byte × Byte) (h : ModifyOp i.mnemonic op) (hm : i.mode ≠ .accumulator)
      (e : t = endAt ((busWrite (eaOf i s) (op (sourceOf i s).1 s.p).1 (sourceOf i s).2).setP (op (sourceOf i s).1 s.p).2)
        (rowFor i).length (rowFor i).cycles)
  | modifyA (op : Byte → Byte → Byte × Byte) (h : ModifyOp i.mnemonic op) (hm : i.mode = .accumulator)
      (e : t = endAt (setAP (op s.a s.p) s) (rowFor i).length (rowFor i).cycles)
  | implied (w : State) (h : Implied s i.mnemonic w) (e : t = endAt w (rowFor i).length (rowFor i).cycles)
  | jump (w : State) (h : Jump i s i.mnemonic w) (e : t = w.setStepCycles ((rowFor i).cycles + w.dmaStall))
  | halt (h : i = .brk) (hb : s.params.brkMode = .halt) (e : t = ((s.setHalted true).setPC (s.pc + 1)).setStepCycles 0)
  | software (h : i = .brk) (hb : s.params.brkMode = .interrupt)
      (e : t = (enterHandler (s.pc + 2) (pushedByInstruction s.p) Config.vecIrq s).setStepCycles (7 + s.dmaStall))
  | branch (h : i.mnemonic ∈ [.bcc, .bcs, .beq, .bne, .bmi, .bpl, .bvc, .bvs]) (pc : Word) (cycles : Nat) (hc : 2 ≤ cycles)
      (e : t = (s.setPC pc).setStepCycles (cycles + s.dmaStall))

@[simp] theorem endAt_a (w : State) (len cycles : Nat) : (endAt w len cycles).a = w.a := rfl
@[simp] theorem endAt_x (w : State) (len cycles : Nat) : (endAt w len cycles).x = w.x := rfl
@[simp] theorem endAt_y (w : State) (len cycles : Nat) : (endAt w len cycles).y = w.y := rfl
@[simp] theorem endAt_sp (w : State) (len cycles : Nat) : (endAt w len cycles).sp = w.sp := rfl
@[simp] theorem endAt_p (w : State) (len cycles : Nat) : (endAt w len cycles).p = w.p := rfl
@[simp] theorem endAt_pc (w : State) (len cycles : Nat) : (endAt w len cycles).pc = w.pc + BitVec.ofNat 16 len := rfl
@[simp] theorem endAt_stepCycles (w : State) (len cycles : Nat) :
    (endAt w len cycles).stepCycles = cycles + w.dmaStall := rfl
@[simp] theorem endAt_outside (w : State) (len cycles : Nat) : (endAt w len cycles).outside = w.outside := rfl
@[simp] theorem endAt_halted (w : State) (len cycles : Nat) : (endAt w len cycles).halted = w.halted := rfl
@[simp] theorem endAt_dmaStall (w : State) (len cycles : Nat) : (endAt w len cycles).dmaStall = w.dmaStall := rfl
@[simp] theorem endAt_memByte (w : State) (len cycles : Nat) (a : Word) : (endAt w len cycles).memByte a = w.memByte a := rfl

theorem advance_shape {len cycles : Nat} {w t : State} (h : advance len cycles w = .next t) : t = endAt w len cycles :=
  (advance_next_iff len cycles w t).1 h

theorem complete_shape {cycles : Nat} {w t : State} (h : complete cycles w = .next t) :
    t = w.setStepCycles (cycles + w.dmaStall) :=
  (complete_next_iff cycles w t).1 h

theorem modify_shape {i : Instr} {s t : State} {op : Byte → Byte → Byte × Byte} (ho : ModifyOp i.mnemonic op)
    (h : modifyBy i s op = .next t) : Shape i s t := by
  unfold modifyBy at h
  split at h
  · next hm => exact .modifyA op ho hm (advance_shape h)
  · next hm =>
    dsimp only at h
    rw [sourceOf_p] at h
    exact .modify op ho (fun h => hm h) (advance_shape h)

theorem branch_shape {i : Instr} {s t : State} {cond : Bool} {off : Byte}
    (hm : i.mnemonic ∈ [.bcc, .bcs, .beq, .bne, .bmi, .bpl, .bvc, .bvs]) (h : branch cond off s = .next t) : Shape i s t := by
  rw [branch_next_iff] at h
  split at h
  · exact .branch hm _ _ (by split <;> omega) h
  · exact .branch hm _ _ (Nat.le_refl 2) h

@[simp] theorem enterHandler_dmaStall (ret : Word) (status : Byte) (vector : Word) (s : State) :
    (enterHandler ret status vector s).dmaStall = s.dmaStall := by
  simp [enterHandler, push16_eq, push_eq, read16]

theorem brk_shape {s t : State} (h : execBrk s = .next t) : Shape .brk s t := by
  unfold execBrk at h
  split at h
  · next hb => exact .halt rfl hb (Host.Outcome.next.inj h).symm
  · next hb =>
    have e := complete_shape h
    rw [enterHandler_dmaStall] at e
    exact .software rfl hb e

/-- The one case split over all instructions. -/
theorem exec_shape {i : Instr} {s t : State} (h : exec i s = .next t) : Shape i s t := by
  rw [exec_eq] at h
  unfold execByMnemonic at h
  split at h
  · next hm => exact .read loadA (hm ▸ .lda) (advance_shape h)
  · next hm => exact .read loadX (hm ▸ .ldx) (advance_shape h)
  · next hm => exact .read loadY (hm ▸ .ldy) (advance_shape h)
  · next hm => exact .store s.a (hm ▸ .sta) (advance_shape h)
  · next hm => exact .store s.x (hm ▸ .stx) (advance_shape h)
  · next hm => exact .store s.y (hm ▸ .sty) (advance_shape h)
  · next hm => exact .implied _ (hm ▸ .tax) (advance_shape h)
  · next hm => exact .implied _ (hm ▸ .tay) (advance_shape h)
  · next hm => exact .implied _ (hm ▸ .txa) (advance_shape h)
  · next hm => exact .implied _ (hm ▸ .tya) (advance_shape h)
  · next hm => exact .implied _ (hm ▸ .tsx) (advance_shape h)
  · next hm => exact .implied _ (hm ▸ .txs) (advance_shape h)
  · next hm => exact .read addA (hm ▸ .adc) (advance_shape h)
  · next hm => exact .read subA (hm ▸ .sbc) (advance_shape h)
  · next hm => exact .read andA (hm ▸ .and) (advance_shape h)
  · next hm => exact .read orA (hm ▸ .ora) (advance_shape h)
  · next hm => exact .read eorA (hm ▸ .eor) (advance_shape h)
  · next hm => exact .read compareA (hm ▸ .cmp) (advance_shape h)
  · next hm => exact .read compareX (hm ▸ .cpx) (advance_shape h)
  · next hm => exact .read compareY (hm ▸ .cpy) (advance_shape h)
  · next hm => exact .read testA (hm ▸ .bit) (advance_shape h)
  · next hm => exact modify_shape (hm ▸ .inc) h
  · next hm => exact modify_shape (hm ▸ .dec) h
  · next hm => exact .implied _ (hm ▸ .inx) (advance_shape h)
  · next hm => exact .implied _ (hm ▸ .iny) (advance_shape h)
  · next hm => exact .implied _ (hm ▸ .dex) (advance_shape h)
  · next hm => exact .implied _ (hm ▸ .dey) (advance_shape h)
  · next hm => exact modify_shape (hm ▸ .asl) h
  · next hm => exact modify_shape (hm ▸ .lsr) h
  · next hm => exact modify_shape (hm ▸ .rol) h
  · next hm => exact modify_shape (hm ▸ .ror) h
  · next hm => exact .jump _ (hm ▸ .jmp) (complete_shape h)
  · next hm => exact .jump _ (hm ▸ .jsr) (complete_shape h)
  · next hm => exact .jump _ (hm ▸ .rts) (complete_shape h)
  · next hm => exact .jump _ (hm ▸ .rti) (complete_shape h)
  · next hm =>
    have hb : i = .brk := by cases i <;> first | rfl | (simp [Instr.mnemonic] at hm; done)
    subst hb
    exact brk_shape h
  · next hm => exact .implied _ (hm ▸ .nop) (advance_shape h)
  · next hm => exact branch_shape (by simp [hm]) h
  · next hm => exact branch_shape (by simp [hm]) h
  · next hm => exact branch_shape (by simp [hm]) h
  · next hm => exact branch_shape (by simp [hm]) h
  · next hm => exact branch_shape (by simp [hm]) h
  · next hm => exact branch_shape (by simp [hm]) h
  · next hm => exact branch_shape (by simp [hm]) h
  · next hm => exact branch_shape (by simp [hm]) h
  · next hm => exact .implied _ (hm ▸ .pha) (advance_shape h)
  · next hm => exact .implied _ (hm ▸ .php) (advance_shape h)
  · next hm => exact .implied _ (hm ▸ .plp) (advance_shape h)
  · next hm => exact .implied _ (hm ▸ .pla) (advance_shape h)
  · next hm => exact .implied _ (hm ▸ .clc) (advance_shape h)
  · next hm => exact .implied _ (hm ▸ .sec) (advance_shape h)
  · next hm => exact .implied _ (hm ▸ .cli) (advance_shape h)
  · next hm => exact .implied _ (hm ▸ .sei) (advance_shape h)
  · next hm => exact .implied _ (hm ▸ .cld) (advance_shape h)
  · next hm => exact .implied _ (hm ▸ .sed) (advance_shape h)
  · next hm => exact .implied _ (hm ▸ .clv) (advance_shape h)

end Sys2Proof.Machine
end

