-- ==== Sys2Proof/Laws/Timer.lean ====
section
/-! SUPPORT. One dot and one APU tick, and any number of them: what they keep, and where the dot position and the parity go. -/

namespace Sys2Proof.Machine

namespace Ppu

/-! ## Dots -/

/-- A dot touches the timer, the vblank and sprite 0 flags, the NMI request and `frame_complete`. -/
theorem dot_touches (u : Ppu) : ∃ sl c vb s0 p fc,
    u.dot = { u with scanline := sl, cycle := c, vblank := vb, sprite0Hit := s0, nmiPending := p, frameComplete := fc } := by
  unfold dot enterScanline enterVblank wrapFrame
  (repeat' split) <;> exact ⟨_, _, _, _, _, _, rfl⟩

theorem dots_touches (n : Nat) (u : Ppu) : ∃ sl c vb s0 p fc,
    dots n u = { u with scanline := sl, cycle := c, vblank := vb, sprite0Hit := s0, nmiPending := p, frameComplete := fc } := by
  induction n with
  | zero => exact ⟨_, _, _, _, _, _, rfl⟩
  | succ n ih =>
    obtain ⟨_, _, _, _, _, _, h⟩ := ih
    obtain ⟨sl, c, vb, s0, p, fc, h'⟩ := dot_touches (dots n u)
    exact ⟨sl, c, vb, s0, p, fc, by rw [dots, h', h]⟩

@[simp] theorem dots_vram (n : Nat) (u : Ppu) : (dots n u).vram = u.vram := by
  obtain ⟨_, _, _, _, _, _, h⟩ := dots_touches n u; rw [h]
@[simp] theorem dots_palette (n : Nat) (u : Ppu) : (dots n u).palette = u.palette := by
  obtain ⟨_, _, _, _, _, _, h⟩ := dots_touches n u; rw [h]
@[simp] theorem dots_oam (n : Nat) (u : Ppu) : (dots n u).oam = u.oam := by
  obtain ⟨_, _, _, _, _, _, h⟩ := dots_touches n u; rw [h]
@[simp] theorem dots_ctrl (n : Nat) (u : Ppu) : (dots n u).ctrl = u.ctrl := by
  obtain ⟨_, _, _, _, _, _, h⟩ := dots_touches n u; rw [h]

theorem dots_add (m n : Nat) (u : Ppu) : dots (m + n) u = dots m (dots n u) := by
  induction m with
  | zero => simp [dots]
  | succ m ih => rw [Nat.succ_add, dots, ih, dots]

/-- A dot, with its cases and numbers written out (R311, R313, R314). -/
theorem dot_eq (u : Ppu) :
    u.dot =
      if u.cycle + 1 = 341 then
        if u.scanline + 1 = 241 then
          { u with
            cycle := 0, scanline := u.scanline + 1, vblank := true, sprite0Hit := false
            nmiPending := u.nmiPending || u.nmiEnable }
        else if u.scanline + 1 = 262 then
          { u with
            cycle := 0, scanline := 0, nmiPending := false, sprite0Hit := false, vblank := false, frameComplete := true }
        else { u with cycle := 0, scanline := u.scanline + 1 }
      else { u with cycle := u.cycle + 1 } := rfl

/-- A dot keeps the timer in range (R311). -/
theorem dot_timerOk (u : Ppu) (h : u.TimerOk) : u.dot.TimerOk := by
  obtain ⟨h1, h2⟩ := h
  simp only [Config.scanlinesPerFrame, Config.dotsPerScanline] at h1 h2
  rw [dot_eq]
  show _ < 262 ∧ _ < 341
  (repeat' split) <;> dsimp only <;> omega

theorem dots_timerOk (n : Nat) (u : Ppu) (h : u.TimerOk) : (dots n u).TimerOk := by
  induction n with
  | zero => exact h
  | succ n ih => exact dot_timerOk _ ih

/-- A dot moves the position in the frame by one (R311). -/
theorem dot_position (u : Ppu) (h : u.TimerOk) :
    u.dot.scanline * 341 + u.dot.cycle = (u.scanline * 341 + u.cycle + 1) % 89342 := by
  obtain ⟨h1, h2⟩ := h
  simp only [Config.scanlinesPerFrame, Config.dotsPerScanline] at h1 h2
  rw [dot_eq]
  (repeat' split) <;> dsimp only <;> omega

theorem dots_position (n : Nat) (u : Ppu) (h : u.TimerOk) :
    (dots n u).scanline * 341 + (dots n u).cycle = (u.scanline * 341 + u.cycle + n) % 89342 := by
  induction n with
  | zero =>
    obtain ⟨h1, h2⟩ := h
    simp only [Config.scanlinesPerFrame, Config.dotsPerScanline] at h1 h2
    simp only [dots]; omega
  | succ n ih =>
    rw [dots, dot_position _ (dots_timerOk n u h), ih]
    omega

/-- Dots that stay on their scanline move the dot number alone. -/
theorem dots_within_line (n : Nat) (u : Ppu) (h : u.cycle + n < 341) : dots n u = { u with cycle := u.cycle + n } := by
  induction n with
  | zero => rfl
  | succ n ih =>
    rw [dots, ih (by omega), dot_eq]
    have : ¬ (({ u with cycle := u.cycle + n } : Ppu).cycle + 1 = 341) := by show ¬ (u.cycle + n + 1 = 341); omega
    rw [if_neg this]; rfl

end Ppu

namespace Apu

/-! ## APU ticks -/

@[simp] theorem tick_apuOdd (u : Apu) : u.tick.apuOdd = !u.apuOdd := by
  simp only [tick, clockTimers, frameCounterTick, frameStep, quarterFrame, halfFrame]
  (repeat' split) <;> rfl

theorem ticks_apuOdd (n : Nat) (u : Apu) : (ticks n u).apuOdd = (u.apuOdd ^^ decide (n % 2 = 1)) := by
  induction n with
  | zero => simp [ticks]
  | succ n ih =>
    rw [ticks, tick_apuOdd, ih]
    cases u.apuOdd <;> rcases Nat.mod_two_eq_zero_or_one n with h | h <;> simp [h, Nat.add_mod]

/-- What a firing step does to the frame counter (R331, R333, R335). -/
theorem frameStep_fc (u : Apu) :
    u.frameStep.fc =
      { u.fc with
        frameIrq := u.fc.frameIrq || (!u.fc.mode && u.fc.step = 3 && !u.fc.irqInhibit)
        step := (u.fc.step + 1) % sequenceLength u.fc.mode } := by
  have h : ∀ b : Bool, (if b then u.quarterFrame.halfFrame else u.quarterFrame).fc = u.fc := by
    intro b; cases b <;> rfl
  show ({ (if halfAt u.fc.mode u.fc.step then u.quarterFrame.halfFrame else u.quarterFrame).fc with
    frameIrq := _, step := _ } : FrameCounter) = _
  simp only [h, show u.quarterFrame.fc = u.fc from rfl]

/-- The frame counter after a tick: its mode and inhibit stay, and the rest depends on the frame counter alone. -/
theorem tick_fc (u : Apu) :
    u.tick.fc =
      if u.fc.divider = 7456 then
        { u.fc with
          divider := 0
          frameIrq := u.fc.frameIrq || (!u.fc.mode && u.fc.step = 3 && !u.fc.irqInhibit)
          step := (u.fc.step + 1) % sequenceLength u.fc.mode }
      else { u.fc with divider := u.fc.divider + 1 } := by
  have h : (u.clockTimers).fc = u.fc := by simp only [clockTimers]; split <;> rfl
  unfold tick
  simp only [frameCounterTick, h]
  by_cases hd : u.fc.divider = 7456
  · rw [if_pos hd, if_pos (by rw [hd]; rfl), frameStep_fc]
  · rw [if_neg hd, if_neg (by simp only [Config.frameStepPeriod]; omega)]

/-- A tick keeps the frame counter in range (R333). -/
theorem tick_inRange (u : Apu) (h : u.fc.InRange) : u.tick.fc.InRange := by
  obtain ⟨h1, h2⟩ := h
  simp only [Config.frameStepPeriod] at h2
  rw [tick_fc]
  split
  · refine ⟨Nat.mod_lt _ ?_, ?_⟩
    · cases u.fc.mode <;> decide
    · exact (by decide : 0 < Config.frameStepPeriod)
  · exact ⟨h1, by simp only [Config.frameStepPeriod]; omega⟩

theorem ticks_inRange (n : Nat) (u : Apu) (h : u.fc.InRange) : (ticks n u).fc.InRange := by
  induction n with
  | zero => exact h
  | succ n ih => exact tick_inRange _ ih

theorem ticks_add (m n : Nat) (u : Apu) : ticks (m + n) u = ticks m (ticks n u) := by
  induction m with
  | zero => simp [ticks]
  | succ m ih => rw [Nat.succ_add, ticks, ih, ticks]

end Apu

end Sys2Proof.Machine
end

