-- ==== Sys2Proof/Laws/Step.lean ====
section
/-! SUPPORT. What a step can be: a reset step, a stopped machine's step, an interrupt entry, a failed fetch, or an instruction. -/

namespace Sys2Proof.Machine

theorem sampleStop_of_not {s : State} (h : s.stopReq = false) : sampleStop s = s := by simp [sampleStop, h]

theorem sampleStop_of_req {s : State} (h : s.stopReq = true) : sampleStop s = (s.setHalted true).setStopReq false := by
  simp [sampleStop, h]

/-- Stopping touches the stopped flag and the request. -/
theorem sampleStop_touches (s : State) : ∃ b c, sampleStop s = { s with halted := b, stopReq := c } := by
  unfold sampleStop
  split
  · exact ⟨true, false, rfl⟩
  · exact ⟨s.halted, s.stopReq, rfl⟩

@[simp] theorem sampleStop_resetReq (s : State) : (sampleStop s).resetReq = s.resetReq := by
  obtain ⟨b, c, h⟩ := sampleStop_touches s; rw [h]

@[simp] theorem sampleStop_fault (s : State) : (sampleStop s).fault = s.fault := by
  obtain ⟨b, c, h⟩ := sampleStop_touches s; rw [h]

@[simp] theorem sampleStop_halted (s : State) : (sampleStop s).halted = (s.halted || s.stopReq) := by
  cases h : s.stopReq <;> simp [sampleStop, h]

@[simp] theorem sampleStop_stopped (s : State) : (sampleStop s).stopped = (s.stopped || s.stopReq) := by
  simp [State.stopped, Bool.or_assoc]

/-- No machine that runs is stopped, and no stop is requested of it. -/
theorem stopped_or_stopReq_eq_false (s : State) :
    (s.stopped || s.stopReq) = false ↔ s.fault = none ∧ s.halted = false ∧ s.stopReq = false := by
  simp [State.stopped, and_assoc]

/-! ## The kinds of step -/

/-- A requested reset goes first. -/
theorem step_of_resetReq {s : State} (h : s.resetReq = true) : step s = .next (resetStep (sampleStop s)) := by
  simp [step, h]

/-- A stopped machine stays as it is, but for the stop request. -/
theorem step_of_stopped {s : State} (hr : s.resetReq = false) (h : (s.stopped || s.stopReq) = true) :
    step s = .next (sampleStop s) := by
  simp only [step, sampleStop_resetReq, hr, sampleStop_stopped, h, if_true, Bool.false_eq_true, if_false]

/-- A machine that runs takes an interrupt or executes an instruction. -/
theorem step_of_running {s : State} (hr : s.resetReq = false) (hf : s.fault = none) (hh : s.halted = false)
    (hq : s.stopReq = false) :
    step s = (match arbitrate s with | some k => .next (interruptStep k s) | none => executeInstruction s) := by
  cases h : arbitrate s <;> simp [step, h, sampleStop_of_not hq, hr, State.stopped, hf, hh]

/-- Where nothing keeps it from fetching, a step executes an instruction. -/
theorem step_of_runs (s : State) (h : s.Runs) : step s = executeInstruction s := by
  obtain ⟨h1, h2, h3, h4, h5⟩ := h
  rw [step_of_running h1 h3 h4 h2, h5]

/-- The kinds of step, by what the step's answer is (R9). -/
theorem step_cases {s t : State} (h : step s = .next t) :
    (s.resetReq = true ∧ t = resetStep (sampleStop s)) ∨
    (s.resetReq = false ∧ (s.stopped || s.stopReq) = true ∧ t = sampleStop s) ∨
    (s.resetReq = false ∧ s.fault = none ∧ s.halted = false ∧ s.stopReq = false ∧
      ((∃ k, arbitrate s = some k ∧ t = interruptStep k s) ∨
       (arbitrate s = none ∧ ∃ op u, fetch (beginInstruction s) = .illegal op u ∧ t = u.setFault (some ⟨op, s.pc⟩)) ∨
       (arbitrate s = none ∧ ∃ i u v, fetch (beginInstruction s) = .instr i u ∧ exec i u = .next v ∧ t = afterInstruction v))) := by
  cases hr : s.resetReq with
  | true => exact .inl ⟨rfl, Host.Outcome.next.inj (h.symm.trans (step_of_resetReq hr))⟩
  | false =>
    cases hs : (s.stopped || s.stopReq) with
    | true => exact .inr (.inl ⟨rfl, rfl, Host.Outcome.next.inj (h.symm.trans (step_of_stopped hr hs))⟩)
    | false =>
      obtain ⟨hf, hh, hq⟩ := (stopped_or_stopReq_eq_false s).1 hs
      refine .inr (.inr ⟨rfl, hf, hh, hq, ?_⟩)
      rw [step_of_running hr hf hh hq] at h
      cases ha : arbitrate s with
      | some k => rw [ha] at h; exact .inl ⟨k, rfl, (Host.Outcome.next.inj h).symm⟩
      | none =>
        rw [ha] at h
        dsimp only at h
        unfold executeInstruction at h
        cases hx : fetch (beginInstruction s) with
        | illegal op u =>
          rw [hx] at h
          exact .inr (.inl ⟨rfl, op, u, rfl, (Host.Outcome.next.inj h).symm⟩)
        | instr i u =>
          rw [hx] at h
          dsimp only at h
          cases hv : exec i u with
          | next v =>
            rw [hv] at h
            exact .inr (.inr ⟨rfl, i, u, v, rfl, hv, (Host.Outcome.next.inj h).symm⟩)
          | fault f => rw [hv] at h; cases h
          | refused f => rw [hv] at h; cases h

/-! ## What a fetch leaves -/

theorem fetchOperands_touches (n : Nat) (a : Word) (s : State) : ∃ u v k es,
    (fetchOperands n a s).2 = { s with ppu := u, apu := v, joypadReads := k, events := s.events ++ es } := by
  induction n generalizing a s with
  | zero => exact ⟨s.ppu, s.apu, s.joypadReads, [], by simp [fetchOperands]⟩
  | succ n ih =>
    obtain ⟨u, v, k, es, h⟩ := busRead_touches a s
    obtain ⟨u', v', k', es', h'⟩ := ih (a + 1) (busRead a s).2
    exact ⟨u', v', k', es ++ es', by rw [fetchOperands]; dsimp only; rw [h', h]; simp⟩

theorem Untimed.fetchOperands (n : Nat) (a : Word) (s : State) : Untimed s (fetchOperands n a s).2 := by
  induction n generalizing a s with
  | zero => exact .refl s
  | succ n ih => exact (Untimed.busRead a s).trans (ih _ _)

/-- The state that a fetch leaves. -/
def Fetched.state : Fetched → State
  | .instr _ t => t
  | .illegal _ t => t

/-- A fetch touches what reads touch: no register, no status, no memory. -/
theorem fetch_touches (s : State) : ∃ u v k es,
    (fetch s).state = { s with ppu := u, apu := v, joypadReads := k, events := s.events ++ es } := by
  obtain ⟨u, v, k, es, h⟩ := busRead_touches s.pc s
  unfold fetch
  dsimp only
  split
  · exact ⟨u, v, k, es, h⟩
  · next len _ =>
    obtain ⟨u', v', k', es', h'⟩ := fetchOperands_touches (len - 1) (s.pc + 1) (busRead s.pc s).2
    refine ⟨u', v', k', es ++ es', ?_⟩
    split <;> (show _ = _; rw [Fetched.state, h', h]; simp)

theorem Untimed.fetch (s : State) : Untimed s (fetch s).state := by
  unfold Machine.fetch
  dsimp only
  split
  · exact .busRead _ _
  · split <;> exact (Untimed.busRead _ _).trans (.fetchOperands _ _ _)

theorem Untimed.beginInstruction (s : State) : Untimed s (beginInstruction s) :=
  .of_eq rfl rfl rfl rfl rfl rfl rfl rfl rfl

/-! ## Closing a step -/

/-- The observer sends an event. -/
theorem notifyObserver_touches (s : State) : ∃ es, notifyObserver s = { s with events := es } := by
  unfold notifyObserver
  split
  · exact ⟨_, rfl⟩
  · exact ⟨s.events, rfl⟩

/-- The end of an instruction's step: its ticks, and events. -/
theorem afterInstruction_touches (s : State) :
    (s.stepCycles = 0 ∧ ∃ es, afterInstruction s = { s with events := es }) ∨
    (s.stepCycles ≠ 0 ∧ ∃ es, afterInstruction s = { tickBatch s.stepCycles s with events := es }) := by
  unfold afterInstruction
  split
  · exact .inl ⟨‹_›, notifyObserver_touches _⟩
  · exact .inr ⟨‹_›, notifyObserver_touches _⟩

end Sys2Proof.Machine
end

