-- ==== Sys2Proof/Tests/Slice0.lean ====
section
/-! SUPPORT. The model's own tests: the well-formedness smoke, the decoder against the spec's encoding tables, one-step tests
whose expected results are those of spec/95_test_vectors.md (each names its vector), and a witness for every statement that has
hypotheses: a concrete state and operands that meet them all. -/

namespace Sys2Proof.Tests

open Sys2Proof Sys2Proof.Machine

/-! ## Helpers -/

/-- The next state of a result, none where there is none. -/
def next? (r : Result) : Option State :=
  match r with
  | .next t => some t
  | _ => none

/-- What `f` sees after one step from `s`. -/
def seen (s : State) (f : State → List Nat) : Option (List Nat) := (next? (step s)).map f

/-- What stands at the bytes of a program ROM, from `k` on. -/
def rom : List Byte → Nat → Memory → Memory
  | [], _, m => m
  | b :: bs, k, m => rom bs (k + 1) (m.write k b)

/-- The vectors' start (spec/95_test_vectors.md, conventions): the state after reset, these bytes at `PRG[0]`, reset vector
`0x8000`. -/
def start (bytes : List Byte) : State :=
  { State.reset with pc := 0x8000, params := { Params.reset with prg := rom bytes 0 [(0x3FFD, 0x80)] } }

/-- The same in `BRK_MODE = interrupt`, with the IRQ vector at `0x9000` (V65). -/
def softInt (s : State) : State :=
  { s with params := { s.params with brkMode := .interrupt, prg := s.params.prg.write 0x3FFF 0x90 } }

/-- The interrupt vectors' start (spec/95, 3.5): a NOP at `0x8000`, NMI vector `0x9000`, IRQ vector `0xA000`. -/
def interruptible (delivery : IrqDelivery) (nmi irq : Bool) (p : Byte) : State :=
  { State.reset with
    pc := 0x8000, p := p
    params :=
      { Params.reset with
        prg := [(0x0000, 0xEA), (0x3FFB, 0x90), (0x3FFD, 0x80), (0x3FFF, 0xA0)], irqDelivery := delivery }
    ppu := { State.reset.ppu with nmiPending := nmi }
    apu := { State.reset.apu with fc := { State.reset.apu.fc with frameIrq := irq } } }

/-- Writes in order: a list of addresses and bytes. -/
def writes (s : State) (ws : List (Word × Byte)) : State := ws.foldl (fun s w => busWrite w.1 w.2 s) s

/-- Reads in order: the bytes and the state they leave. -/
def reads : List Word → State → List Byte × State
  | [], s => ([], s)
  | a :: as, s => ((busRead a s).1 :: (reads as (busRead a s).2).1, (reads as (busRead a s).2).2)

/-! ## Well-formedness: each check refuses a term -/

/-- STA has no immediate mode (R147): the first check refuses it, though its operand has the right length. -/
theorem test_ill_formed_mode :
    (⟨.sta, .immediate, [0x12]⟩ : Written).modeOk = false ∧ (⟨.sta, .immediate, [0x12]⟩ : Written).lengthOk = true ∧
    (⟨.sta, .immediate, [0x12]⟩ : Written).wellFormed = false := by decide

/-- LDA absolute takes two operand bytes (R130): the second check refuses one. -/
theorem test_ill_formed_length :
    (⟨.lda, .absolute, [0x12]⟩ : Written).modeOk = true ∧ (⟨.lda, .absolute, [0x12]⟩ : Written).lengthOk = false ∧
    (⟨.lda, .absolute, [0x12]⟩ : Written).wellFormed = false := by decide

/-- A well-formed one passes both. -/
theorem test_well_formed : (⟨.lda, .absolute, [0x34, 0x12]⟩ : Written).wellFormed = true := by decide

/-! ## Decoding -/

/-- The encoding tables of spec/40_load_store_transfer.md, row by row: the bytes and the instruction they stand for. -/
def wordsLoadStoreTransfer : List (List Byte × Instr) :=
  ([([0xA9, 0x9C], .ldaImm 0x9C), ([0xA5, 0x9C], .ldaZp 0x9C), ([0xB5, 0x9C], .ldaZpX 0x9C),
     ([0xAD, 0xFE, 0x01], .ldaAbs 0x01FE), ([0xBD, 0xFE, 0x01], .ldaAbsX 0x01FE), ([0xB9, 0xFE, 0x01], .ldaAbsY 0x01FE),
     ([0xA1, 0x9C], .ldaIndX 0x9C), ([0xB1, 0x9C], .ldaIndY 0x9C), ([0xA2, 0x9C], .ldxImm 0x9C),
     ([0xA6, 0x9C], .ldxZp 0x9C), ([0xB6, 0x9C], .ldxZpY 0x9C), ([0xAE, 0xFE, 0x01], .ldxAbs 0x01FE),
     ([0xBE, 0xFE, 0x01], .ldxAbsY 0x01FE)] : List (List Byte × Instr)) ++
  ([([0xA0, 0x9C], .ldyImm 0x9C), ([0xA4, 0x9C], .ldyZp 0x9C), ([0xB4, 0x9C], .ldyZpX 0x9C),
     ([0xAC, 0xFE, 0x01], .ldyAbs 0x01FE), ([0xBC, 0xFE, 0x01], .ldyAbsX 0x01FE), ([0x85, 0x9C], .staZp 0x9C),
     ([0x95, 0x9C], .staZpX 0x9C), ([0x8D, 0xFE, 0x01], .staAbs 0x01FE), ([0x9D, 0xFE, 0x01], .staAbsX 0x01FE),
     ([0x99, 0xFE, 0x01], .staAbsY 0x01FE), ([0x81, 0x9C], .staIndX 0x9C), ([0x91, 0x9C], .staIndY 0x9C)] : List (List Byte × Instr)) ++
  ([([0x86, 0x9C], .stxZp 0x9C), ([0x96, 0x9C], .stxZpY 0x9C), ([0x8E, 0xFE, 0x01], .stxAbs 0x01FE),
     ([0x84, 0x9C], .styZp 0x9C), ([0x94, 0x9C], .styZpX 0x9C), ([0x8C, 0xFE, 0x01], .styAbs 0x01FE), ([0xAA], .tax),
     ([0xA8], .tay), ([0x8A], .txa), ([0x98], .tya), ([0xBA], .tsx), ([0x9A], .txs)] : List (List Byte × Instr))

/-- Every row decodes to its instruction. -/
theorem test_decode_load_store_transfer : ∀ e ∈ wordsLoadStoreTransfer, decode e.1 = .ok e.2 [] := by decide

/-- The encoding tables of spec/41_arithmetic_logic.md, row by row: the bytes and the instruction they stand for. -/
def wordsArithmeticLogic : List (List Byte × Instr) :=
  ([([0x69, 0x9C], .adcImm 0x9C), ([0x65, 0x9C], .adcZp 0x9C), ([0x75, 0x9C], .adcZpX 0x9C),
     ([0x6D, 0xFE, 0x01], .adcAbs 0x01FE), ([0x7D, 0xFE, 0x01], .adcAbsX 0x01FE), ([0x79, 0xFE, 0x01], .adcAbsY 0x01FE),
     ([0x61, 0x9C], .adcIndX 0x9C), ([0x71, 0x9C], .adcIndY 0x9C), ([0xE9, 0x9C], .sbcImm 0x9C),
     ([0xE5, 0x9C], .sbcZp 0x9C), ([0xF5, 0x9C], .sbcZpX 0x9C), ([0xED, 0xFE, 0x01], .sbcAbs 0x01FE),
     ([0xFD, 0xFE, 0x01], .sbcAbsX 0x01FE), ([0xF9, 0xFE, 0x01], .sbcAbsY 0x01FE), ([0xE1, 0x9C], .sbcIndX 0x9C),
     ([0xF1, 0x9C], .sbcIndY 0x9C)] : List (List Byte × Instr)) ++
  ([([0x29, 0x9C], .andImm 0x9C), ([0x25, 0x9C], .andZp 0x9C), ([0x35, 0x9C], .andZpX 0x9C),
     ([0x2D, 0xFE, 0x01], .andAbs 0x01FE), ([0x3D, 0xFE, 0x01], .andAbsX 0x01FE), ([0x39, 0xFE, 0x01], .andAbsY 0x01FE),
     ([0x21, 0x9C], .andIndX 0x9C), ([0x31, 0x9C], .andIndY 0x9C), ([0x09, 0x9C], .oraImm 0x9C),
     ([0x05, 0x9C], .oraZp 0x9C), ([0x15, 0x9C], .oraZpX 0x9C), ([0x0D, 0xFE, 0x01], .oraAbs 0x01FE),
     ([0x1D, 0xFE, 0x01], .oraAbsX 0x01FE), ([0x19, 0xFE, 0x01], .oraAbsY 0x01FE), ([0x01, 0x9C], .oraIndX 0x9C),
     ([0x11, 0x9C], .oraIndY 0x9C)] : List (List Byte × Instr)) ++
  ([([0x49, 0x9C], .eorImm 0x9C), ([0x45, 0x9C], .eorZp 0x9C), ([0x55, 0x9C], .eorZpX 0x9C),
     ([0x4D, 0xFE, 0x01], .eorAbs 0x01FE), ([0x5D, 0xFE, 0x01], .eorAbsX 0x01FE), ([0x59, 0xFE, 0x01], .eorAbsY 0x01FE),
     ([0x41, 0x9C], .eorIndX 0x9C), ([0x51, 0x9C], .eorIndY 0x9C), ([0xC9, 0x9C], .cmpImm 0x9C),
     ([0xC5, 0x9C], .cmpZp 0x9C), ([0xD5, 0x9C], .cmpZpX 0x9C), ([0xCD, 0xFE, 0x01], .cmpAbs 0x01FE),
     ([0xDD, 0xFE, 0x01], .cmpAbsX 0x01FE), ([0xD9, 0xFE, 0x01], .cmpAbsY 0x01FE), ([0xC1, 0x9C], .cmpIndX 0x9C),
     ([0xD1, 0x9C], .cmpIndY 0x9C)] : List (List Byte × Instr)) ++
  ([([0xE0, 0x9C], .cpxImm 0x9C), ([0xE4, 0x9C], .cpxZp 0x9C), ([0xEC, 0xFE, 0x01], .cpxAbs 0x01FE),
     ([0xC0, 0x9C], .cpyImm 0x9C), ([0xC4, 0x9C], .cpyZp 0x9C), ([0xCC, 0xFE, 0x01], .cpyAbs 0x01FE),
     ([0x24, 0x9C], .bitZp 0x9C), ([0x2C, 0xFE, 0x01], .bitAbs 0x01FE), ([0xE6, 0x9C], .incZp 0x9C),
     ([0xF6, 0x9C], .incZpX 0x9C), ([0xEE, 0xFE, 0x01], .incAbs 0x01FE), ([0xFE, 0xFE, 0x01], .incAbsX 0x01FE)] : List (List Byte × Instr)) ++
  ([([0xC6, 0x9C], .decZp 0x9C), ([0xD6, 0x9C], .decZpX 0x9C), ([0xCE, 0xFE, 0x01], .decAbs 0x01FE),
     ([0xDE, 0xFE, 0x01], .decAbsX 0x01FE), ([0xE8], .inx), ([0xC8], .iny), ([0xCA], .dex), ([0x88], .dey)] : List (List Byte × Instr))

/-- Every row decodes to its instruction. -/
theorem test_decode_arithmetic_logic : ∀ e ∈ wordsArithmeticLogic, decode e.1 = .ok e.2 [] := by decide

/-- The encoding tables of spec/42_shift_rotate.md, row by row: the bytes and the instruction they stand for. -/
def wordsShiftRotate : List (List Byte × Instr) :=
  ([([0x0A], .aslA), ([0x06, 0x9C], .aslZp 0x9C), ([0x16, 0x9C], .aslZpX 0x9C), ([0x0E, 0xFE, 0x01], .aslAbs 0x01FE),
     ([0x1E, 0xFE, 0x01], .aslAbsX 0x01FE), ([0x4A], .lsrA), ([0x46, 0x9C], .lsrZp 0x9C), ([0x56, 0x9C], .lsrZpX 0x9C),
     ([0x4E, 0xFE, 0x01], .lsrAbs 0x01FE), ([0x5E, 0xFE, 0x01], .lsrAbsX 0x01FE), ([0x2A], .rolA),
     ([0x26, 0x9C], .rolZp 0x9C), ([0x36, 0x9C], .rolZpX 0x9C), ([0x2E, 0xFE, 0x01], .rolAbs 0x01FE),
     ([0x3E, 0xFE, 0x01], .rolAbsX 0x01FE)] : List (List Byte × Instr)) ++
  ([([0x6A], .rorA), ([0x66, 0x9C], .rorZp 0x9C), ([0x76, 0x9C], .rorZpX 0x9C), ([0x6E, 0xFE, 0x01], .rorAbs 0x01FE),
     ([0x7E, 0xFE, 0x01], .rorAbsX 0x01FE)] : List (List Byte × Instr))

/-- Every row decodes to its instruction. -/
theorem test_decode_shift_rotate : ∀ e ∈ wordsShiftRotate, decode e.1 = .ok e.2 [] := by decide

/-- The encoding tables of spec/43_control_flow.md, row by row: the bytes and the instruction they stand for. -/
def wordsControlFlow : List (List Byte × Instr) :=
  ([([0x4C, 0xFE, 0x01], .jmpAbs 0x01FE), ([0x6C, 0xFE, 0x01], .jmpInd 0x01FE), ([0x20, 0xFE, 0x01], .jsrAbs 0x01FE),
     ([0x60], .rts), ([0x40], .rti), ([0x00], .brk), ([0xEA], .nop), ([0x90, 0x9C], .bcc 0x9C),
     ([0xB0, 0x9C], .bcs 0x9C), ([0xF0, 0x9C], .beq 0x9C), ([0xD0, 0x9C], .bne 0x9C), ([0x30, 0x9C], .bmi 0x9C)] : List (List Byte × Instr)) ++
  ([([0x10, 0x9C], .bpl 0x9C), ([0x50, 0x9C], .bvc 0x9C), ([0x70, 0x9C], .bvs 0x9C)] : List (List Byte × Instr))

/-- Every row decodes to its instruction. -/
theorem test_decode_control_flow : ∀ e ∈ wordsControlFlow, decode e.1 = .ok e.2 [] := by decide

/-- The encoding tables of spec/44_stack_flags.md, row by row: the bytes and the instruction they stand for. -/
def wordsStackFlags : List (List Byte × Instr) :=
  ([([0x48], .pha), ([0x08], .php), ([0x28], .plp), ([0x68], .pla), ([0x18], .clc), ([0x38], .sec), ([0x58], .cli),
     ([0x78], .sei), ([0xD8], .cld), ([0xF8], .sed), ([0xB8], .clv)] : List (List Byte × Instr))

/-- Every row decodes to its instruction. -/
theorem test_decode_stack_flags : ∀ e ∈ wordsStackFlags, decode e.1 = .ok e.2 [] := by decide

/-- Illegal bytes and missing operands are refused by name (R149, R130). -/
theorem test_decode_refuses :
    decode [0x02, 0x00] = .rejected (.illegalOpcode 0x02) ∧ decode [0xEB, 0x01] = .rejected (.illegalOpcode 0xEB) ∧
    decode [0xAD, 0x34] = .rejected (.missingOperand 0xAD) ∧ decode [] = .rejected (.missingOperand 0x00) := by decide

/-- The opcode table's numbering: bit 0 is the first byte's, operand bytes not given are 0. -/
theorem test_decode_table_word :
    decodeTableWord 8 0xA9 = some (.ldaImm 0x00) ∧ decodeTableWord 24 0x12348D = some (.staAbs 0x1234) ∧
    decodeTableWord 8 0x02 = none := by decide

/-- A placed instruction is the one the next step runs. -/
theorem test_with_fetch_word :
    seen (State.reset.withFetchWord 16 0x7FA9) (fun t => [t.a.toNat, t.stepCycles]) = some [0x7F, 2] := by decide

/-! ## The address map (R87) and reset (R440) -/

/-- The first and last address of every window. -/
theorem test_windows :
    [windowOf 0x0000, windowOf 0x1FFF] = [.ram, .ram] ∧ [windowOf 0x2000, windowOf 0x3FFF] = [.ppu, .ppu] ∧
    [windowOf 0x4000, windowOf 0x4013] = [.apuRegs, .apuRegs] ∧
    [windowOf 0x4014, windowOf 0x4015, windowOf 0x4016, windowOf 0x4017] = [.oamDma, .apuStatus, .joypad, .frameCounter] ∧
    [windowOf 0x4018, windowOf 0x7FFF] = [.unmapped, .unmapped] ∧ [windowOf 0x8000, windowOf 0xFFFF] = [.prg, .prg] := by
  decide

/-- The reset step from the launch state (R450) leaves exactly `State.reset`. -/
theorem test_reset_step : next? (step (State.launch Params.reset [] [] [] [])) = some State.reset := by decide

/-! ## One instruction (spec/95 section 2) -/

/-- V5: `LDA $10FF,X`. -/
theorem test_v5_lda :
    seen (((start [0xBD, 0xFF, 0x10]).setX 0x01).setRam [(0x100, 0x80)])
      (fun t => [t.a.toNat, t.p.toNat, t.stepCycles]) = some [0x80, 0xA4, 5] := by decide

/-- V8: `LDA ($FF),Y`. -/
theorem test_v8_lda :
    seen (((start [0xB1, 0xFF]).setY 0x10).setRam [(0x000, 0x02), (0x0FF, 0xF8), (0x100, 0x66), (0x308, 0x77)])
      (fun t => [t.a.toNat, t.stepCycles]) = some [0x77, 6] := by decide

/-- V9: `LDX $10,Y`. -/
theorem test_v9_ldx :
    seen (((start [0xB6, 0x10]).setY 0xF5).setRam [(0x005, 0xEE)])
      (fun t => [t.x.toNat, t.p.toNat, t.stepCycles]) = some [0xEE, 0xA4, 4] := by decide

/-- V10: `LDX $0300,Y`. -/
theorem test_v10_ldx :
    seen (((start [0xBE, 0x00, 0x03]).setY 0x02).setX 0x09)
      (fun t => [t.x.toNat, t.p.toNat, t.stepCycles]) = some [0x00, 0x26, 4] := by decide

/-- V11: `LDY #$7F`. -/
theorem test_v11_ldy :
    seen (start [0xA0, 0x7F])
      (fun t => [t.y.toNat, t.stepCycles]) = some [0x7F, 2] := by decide

/-- V13: `STA $02FF,X`. -/
theorem test_v13_sta :
    seen (((start [0x9D, 0xFF, 0x02]).setA 0x11).setX 0x01)
      (fun t => [(t.ram.read 0x300).toNat, t.stepCycles]) = some [0x11, 5] := by decide

/-- V14: `STA ($40),Y`. -/
theorem test_v14_sta :
    seen ((((start [0x91, 0x40]).setA 0x22).setY 0x01).setRam [(0x040, 0xFF), (0x041, 0x03)])
      (fun t => [(t.ram.read 0x400).toNat, t.stepCycles]) = some [0x22, 6] := by decide

/-- V15: `STX $10,Y`. -/
theorem test_v15_stx :
    seen (((start [0x96, 0x10]).setX 0x77).setY 0xFF)
      (fun t => [(t.ram.read 0x00F).toNat, t.stepCycles]) = some [0x77, 4] := by decide

/-- V16: `STY $8000`. -/
theorem test_v16_sty :
    seen ((start [0x8C, 0x00, 0x80]).setY 0x01)
      (fun t => [t.pc.toNat, t.stepCycles]) = some [0x8003, 4] := by decide

/-- V17: `TAX`. -/
theorem test_v17_tax :
    seen ((start [0xAA]).setA 0x80)
      (fun t => [t.x.toNat, t.p.toNat, t.stepCycles]) = some [0x80, 0xA4, 2] := by decide

/-- V18: `TAY`. -/
theorem test_v18_tay :
    seen (((start [0xA8]).setA 0x00).setY 0x05)
      (fun t => [t.y.toNat, t.p.toNat, t.stepCycles]) = some [0x00, 0x26, 2] := by decide

/-- V19: `TXA`. -/
theorem test_v19_txa :
    seen ((((start [0x8A]).setX 0x01).setA 0xFF).setP 0xA4)
      (fun t => [t.a.toNat, t.p.toNat, t.stepCycles]) = some [0x01, 0x24, 2] := by decide

/-- V20: `TYA`. -/
theorem test_v20_tya :
    seen ((start [0x98]).setY 0xF0)
      (fun t => [t.a.toNat, t.p.toNat, t.stepCycles]) = some [0xF0, 0xA4, 2] := by decide

/-- V21: `TSX`. -/
theorem test_v21_tsx :
    seen (start [0xBA])
      (fun t => [t.x.toNat, t.p.toNat, t.stepCycles]) = some [0xFD, 0xA4, 2] := by decide

/-- V22: `TXS`. -/
theorem test_v22_txs :
    seen (((start [0x9A]).setX 0x00).setP 0xA4)
      (fun t => [t.sp.toNat, t.stepCycles]) = some [0x00, 2] := by decide

/-- V25: `ADC #$80`. -/
theorem test_v25_adc :
    seen ((start [0x69, 0x80]).setA 0x80)
      (fun t => [t.a.toNat, t.p.toNat, t.stepCycles]) = some [0x00, 0x67, 2] := by decide

/-- V27: `ADC #$09`. -/
theorem test_v27_adc :
    seen (((start [0x69, 0x09]).setA 0x09).setP 0x2C)
      (fun t => [t.a.toNat, t.stepCycles]) = some [0x12, 2] := by decide

/-- V30: `SBC #$00`. -/
theorem test_v30_sbc :
    seen (((start [0xE9, 0x00]).setA 0x00).setP 0x24)
      (fun t => [t.a.toNat, t.p.toNat, t.stepCycles]) = some [0xFF, 0xA4, 2] := by decide

/-- V31: `SBC #$01`. -/
theorem test_v31_sbc :
    seen (((start [0xE9, 0x01]).setA 0x80).setP 0x25)
      (fun t => [t.a.toNat, t.p.toNat, t.stepCycles]) = some [0x7F, 0x65, 2] := by decide

/-- V33: `AND #$0F`. -/
theorem test_v33_and :
    seen ((start [0x29, 0x0F]).setA 0xF0)
      (fun t => [t.a.toNat, t.p.toNat, t.stepCycles]) = some [0x00, 0x26, 2] := by decide

/-- V34: `ORA $10`. -/
theorem test_v34_ora :
    seen (((start [0x05, 0x10]).setA 0x01).setRam [(0x010, 0x80)])
      (fun t => [t.a.toNat, t.p.toNat, t.stepCycles]) = some [0x81, 0xA4, 3] := by decide

/-- V35: `EOR #$FF`. -/
theorem test_v35_eor :
    seen ((start [0x49, 0xFF]).setA 0xFF)
      (fun t => [t.a.toNat, t.p.toNat, t.stepCycles]) = some [0x00, 0x26, 2] := by decide

/-- V36: `CMP #$10`. -/
theorem test_v36_cmp :
    seen ((start [0xC9, 0x10]).setA 0x10)
      (fun t => [t.p.toNat, t.stepCycles]) = some [0x27, 2] := by decide

/-- V38: `CMP #$80`. -/
theorem test_v38_cmp :
    seen ((start [0xC9, 0x80]).setA 0x00)
      (fun t => [t.p.toNat, t.stepCycles]) = some [0xA4, 2] := by decide

/-- V39: `CPX #$01`. -/
theorem test_v39_cpx :
    seen ((start [0xE0, 0x01]).setX 0x02)
      (fun t => [t.p.toNat, t.stepCycles]) = some [0x25, 2] := by decide

/-- V40: `CPY $10`. -/
theorem test_v40_cpy :
    seen (((start [0xC4, 0x10]).setY 0x00).setRam [(0x010, 0x01)])
      (fun t => [t.p.toNat, t.stepCycles]) = some [0xA4, 3] := by decide

/-- V41: `BIT $10`. -/
theorem test_v41_bit :
    seen (((start [0x24, 0x10]).setA 0x01).setRam [(0x010, 0xC0)])
      (fun t => [t.p.toNat, t.stepCycles]) = some [0xE6, 3] := by decide

/-- V42: `BIT $10`. -/
theorem test_v42_bit :
    seen ((((start [0x24, 0x10]).setA 0xFF).setP 0xE4).setRam [(0x010, 0x3F)])
      (fun t => [t.p.toNat, t.stepCycles]) = some [0x24, 3] := by decide

/-- V43: `INC $10`. -/
theorem test_v43_inc :
    seen ((start [0xE6, 0x10]).setRam [(0x010, 0xFF)])
      (fun t => [t.p.toNat, (t.ram.read 0x010).toNat, t.stepCycles]) = some [0x26, 0x00, 5] := by decide

/-- V44: `INC $0200,X`. -/
theorem test_v44_inc :
    seen (((start [0xFE, 0x00, 0x02]).setX 0x01).setRam [(0x201, 0x7F)])
      (fun t => [t.p.toNat, (t.ram.read 0x201).toNat, t.stepCycles]) = some [0xA4, 0x80, 7] := by decide

/-- V45: `DEC $10`. -/
theorem test_v45_dec :
    seen (start [0xC6, 0x10])
      (fun t => [t.p.toNat, (t.ram.read 0x010).toNat, t.stepCycles]) = some [0xA4, 0xFF, 5] := by decide

/-- V46: `INX`. -/
theorem test_v46_inx :
    seen ((start [0xE8]).setX 0xFF)
      (fun t => [t.x.toNat, t.p.toNat, t.stepCycles]) = some [0x00, 0x26, 2] := by decide

/-- V47: `INY`. -/
theorem test_v47_iny :
    seen ((start [0xC8]).setY 0x7F)
      (fun t => [t.y.toNat, t.p.toNat, t.stepCycles]) = some [0x80, 0xA4, 2] := by decide

/-- V48: `DEX`. -/
theorem test_v48_dex :
    seen ((start [0xCA]).setX 0x00)
      (fun t => [t.x.toNat, t.p.toNat, t.stepCycles]) = some [0xFF, 0xA4, 2] := by decide

/-- V49: `DEY`. -/
theorem test_v49_dey :
    seen ((start [0x88]).setY 0x01)
      (fun t => [t.y.toNat, t.p.toNat, t.stepCycles]) = some [0x00, 0x26, 2] := by decide

/-- V50: `ASL A`. -/
theorem test_v50_asl :
    seen ((start [0x0A]).setA 0x81)
      (fun t => [t.a.toNat, t.p.toNat, t.stepCycles]) = some [0x02, 0x25, 2] := by decide

/-- V51: `ASL $10`. -/
theorem test_v51_asl :
    seen (((start [0x06, 0x10]).setA 0x55).setRam [(0x010, 0x80)])
      (fun t => [t.p.toNat, (t.ram.read 0x010).toNat, t.stepCycles]) = some [0x27, 0x00, 5] := by decide

/-- V52: `LSR A`. -/
theorem test_v52_lsr :
    seen ((start [0x4A]).setA 0x01)
      (fun t => [t.a.toNat, t.p.toNat, t.stepCycles]) = some [0x00, 0x27, 2] := by decide

/-- V53: `LSR $0200`. -/
theorem test_v53_lsr :
    seen (((start [0x4E, 0x00, 0x02]).setP 0xA4).setRam [(0x200, 0xFF)])
      (fun t => [t.p.toNat, (t.ram.read 0x200).toNat, t.stepCycles]) = some [0x25, 0x7F, 6] := by decide

/-- V54: `ROL A`. -/
theorem test_v54_rol :
    seen (((start [0x2A]).setA 0x40).setP 0x25)
      (fun t => [t.a.toNat, t.p.toNat, t.stepCycles]) = some [0x81, 0xA4, 2] := by decide

/-- V55: `ROL $10,X`. -/
theorem test_v55_rol :
    seen (((start [0x36, 0x10]).setX 0x01).setRam [(0x011, 0x80)])
      (fun t => [t.p.toNat, (t.ram.read 0x011).toNat, t.stepCycles]) = some [0x27, 0x00, 6] := by decide

/-- V56: `ROR A`. -/
theorem test_v56_ror :
    seen (((start [0x6A]).setA 0x02).setP 0x25)
      (fun t => [t.a.toNat, t.p.toNat, t.stepCycles]) = some [0x81, 0xA4, 2] := by decide

/-- V57: `ROR $0200,X`. -/
theorem test_v57_ror :
    seen (((start [0x7E, 0x00, 0x02]).setX 0xFF).setRam [(0x2FF, 0x01)])
      (fun t => [t.p.toNat, (t.ram.read 0x2FF).toNat, t.stepCycles]) = some [0x27, 0x00, 7] := by decide

/-- V58: `JMP $9000`. -/
theorem test_v58_jmp :
    seen (start [0x4C, 0x00, 0x90])
      (fun t => [t.pc.toNat, t.stepCycles]) = some [0x9000, 3] := by decide

/-- V59: `JMP ($02FF)`. -/
theorem test_v59_jmp :
    seen ((start [0x6C, 0xFF, 0x02]).setRam [(0x200, 0x12), (0x2FF, 0x34), (0x300, 0x99)])
      (fun t => [t.pc.toNat, t.stepCycles]) = some [0x1234, 5] := by decide

/-- V61: `JSR $1234`. -/
theorem test_v61_jsr :
    seen (start [0x20, 0x34, 0x12])
      (fun t => [t.sp.toNat, (t.ram.read 0x1FC).toNat, (t.ram.read 0x1FD).toNat, t.pc.toNat, t.stepCycles]) = some [0xFB, 0x02, 0x80, 0x1234, 6] := by decide

/-- V62: `RTS`. -/
theorem test_v62_rts :
    seen (((start [0x60]).setSP 0xFB).setRam [(0x1FC, 0x02), (0x1FD, 0x80)])
      (fun t => [t.sp.toNat, t.pc.toNat, t.stepCycles]) = some [0xFD, 0x8003, 6] := by decide

/-- V63: `RTI`. -/
theorem test_v63_rti :
    seen (((start [0x40]).setSP 0xFA).setRam [(0x1FB, 0xD1), (0x1FC, 0x05), (0x1FD, 0x80)])
      (fun t => [t.sp.toNat, t.p.toNat, t.pc.toNat, t.stepCycles]) = some [0xFD, 0xE1, 0x8005, 6] := by decide

/-- V64: `BRK`. -/
theorem test_v64_brk :
    seen (start [0x00])
      (fun t => [t.pc.toNat, t.stepCycles]) = some [0x8001, 0] := by decide

/-- V65: `BRK`. -/
theorem test_v65_brk :
    seen (softInt (start [0x00]))
      (fun t => [t.sp.toNat, (t.ram.read 0x1FB).toNat, (t.ram.read 0x1FC).toNat, (t.ram.read 0x1FD).toNat, t.pc.toNat, t.stepCycles]) = some [0xFA, 0x34, 0x02, 0x80, 0x9000, 7] := by decide

/-- V66: `NOP`. -/
theorem test_v66_nop :
    seen (start [0xEA])
      (fun t => [t.pc.toNat, t.stepCycles]) = some [0x8001, 2] := by decide

/-- V67: `BCC +2`. -/
theorem test_v67_bcc :
    seen (start [0x90, 0x02])
      (fun t => [t.pc.toNat, t.stepCycles]) = some [0x8004, 3] := by decide

/-- V69: `BCS -2`. -/
theorem test_v69_bcs :
    seen ((start [0xB0, 0xFE]).setP 0x25)
      (fun t => [t.pc.toNat, t.stepCycles]) = some [0x8000, 3] := by decide

/-- V70: `BEQ +127`. -/
theorem test_v70_beq :
    seen ((start [0xF0, 0x7F]).setP 0x26)
      (fun t => [t.pc.toNat, t.stepCycles]) = some [0x8081, 3] := by decide

/-- V71: `BNE -128`. -/
theorem test_v71_bne :
    seen (start [0xD0, 0x80])
      (fun t => [t.pc.toNat, t.stepCycles]) = some [0x7F82, 4] := by decide

/-- V72: `BMI +0`. -/
theorem test_v72_bmi :
    seen ((start [0x30, 0x00]).setP 0xA4)
      (fun t => [t.pc.toNat, t.stepCycles]) = some [0x8002, 3] := by decide

/-- V73: `BPL +5`. -/
theorem test_v73_bpl :
    seen ((start [0x10, 0x05]).setP 0xA4)
      (fun t => [t.pc.toNat, t.stepCycles]) = some [0x8002, 2] := by decide

/-- V74: `BVC +16`. -/
theorem test_v74_bvc :
    seen (start [0x50, 0x10])
      (fun t => [t.pc.toNat, t.stepCycles]) = some [0x8012, 3] := by decide

/-- V75: `BVS +16`. -/
theorem test_v75_bvs :
    seen ((start [0x70, 0x10]).setP 0x64)
      (fun t => [t.pc.toNat, t.stepCycles]) = some [0x8012, 3] := by decide

/-- V77: `PHA`. -/
theorem test_v77_pha :
    seen (((start [0x48]).setA 0x42).setSP 0x00)
      (fun t => [t.sp.toNat, (t.ram.read 0x100).toNat, t.stepCycles]) = some [0xFF, 0x42, 3] := by decide

/-- V78: `PHP`. -/
theorem test_v78_php :
    seen (start [0x08])
      (fun t => [t.sp.toNat, (t.ram.read 0x1FD).toNat, t.stepCycles]) = some [0xFC, 0x34, 3] := by decide

/-- V79: `PLP`. -/
theorem test_v79_plp :
    seen (((start [0x28]).setSP 0xFC).setRam [(0x1FD, 0xFF)])
      (fun t => [t.sp.toNat, t.p.toNat, t.stepCycles]) = some [0xFD, 0xEF, 4] := by decide

/-- V80: `PLP`. -/
theorem test_v80_plp :
    seen ((start [0x28]).setSP 0xFC)
      (fun t => [t.sp.toNat, t.p.toNat, t.stepCycles]) = some [0xFD, 0x20, 4] := by decide

/-- V81: `PLA`. -/
theorem test_v81_pla :
    seen ((((start [0x68]).setSP 0xFF).setA 0x01).setRam [(0x100, 0x80)])
      (fun t => [t.a.toNat, t.sp.toNat, t.p.toNat, t.stepCycles]) = some [0x80, 0x00, 0xA4, 4] := by decide

/-- V82: `CLC`. -/
theorem test_v82_clc :
    seen ((start [0x18]).setP 0x25)
      (fun t => [t.p.toNat, t.stepCycles]) = some [0x24, 2] := by decide

/-- V83: `SEC`. -/
theorem test_v83_sec :
    seen (start [0x38])
      (fun t => [t.p.toNat, t.stepCycles]) = some [0x25, 2] := by decide

/-- V84: `CLI`. -/
theorem test_v84_cli :
    seen (start [0x58])
      (fun t => [t.p.toNat, t.stepCycles]) = some [0x20, 2] := by decide

/-- V85: `SEI`. -/
theorem test_v85_sei :
    seen ((start [0x78]).setP 0x20)
      (fun t => [t.p.toNat, t.stepCycles]) = some [0x24, 2] := by decide

/-- V86: `CLD`. -/
theorem test_v86_cld :
    seen ((start [0xD8]).setP 0x2C)
      (fun t => [t.p.toNat, t.stepCycles]) = some [0x24, 2] := by decide

/-- V87: `SED`. -/
theorem test_v87_sed :
    seen (start [0xF8])
      (fun t => [t.p.toNat, t.stepCycles]) = some [0x2C, 2] := by decide

/-- V88: `CLV`. -/
theorem test_v88_clv :
    seen ((start [0xB8]).setP 0x64)
      (fun t => [t.p.toNat, t.stepCycles]) = some [0x24, 2] := by decide

/-- V89: an illegal byte latches the fault and ticks nothing. -/
theorem test_v89_illegal :
    (next? (step (start [0x02]))).map (fun t => (t.fault, t.pc, t.cyc)) = some (some ⟨0x02, 0x8000⟩, 0x8000, 7) := by decide

/-- R401, R9: no later step of the failed machine does anything, but that a stop request halts it. -/
theorem test_failed_stays :
    (let s := (start [0x02]).setFault (some ⟨0x02, 0x8000⟩)
     next? (step s) = some s ∧ (next? (step (s.setStopReq true))).map (fun t => (t.halted, t.fault, t.pc)) =
       some (true, some ⟨0x02, 0x8000⟩, 0x8000)) := by decide

/-- V91: a read of a write-only register gives the placeholder and a diagnostic. -/
theorem test_v91_illegal_read :
    (next? (step ((start [0xAD, 0x00, 0x20]).setA 0x55))).map (fun t => (t.a, t.events)) =
      some (0x00, [.diag .illegalRead 0x2000 0x00]) := by decide

/-! ## Bus, devices, interrupts (spec/95 section 3) -/

/-- B1: RAM is read through every mirror. -/
theorem test_b1_ram_mirrors :
    (reads [0x0005, 0x0805, 0x1005, 0x1805] (busWrite 0x0005 0xAA State.reset)).1 = [0xAA, 0xAA, 0xAA, 0xAA] := by decide

/-- B7, B8: a write to ROM and a read of nothing are diagnostics. -/
theorem test_b7_b8_diagnostics :
    (busWrite 0x8000 0x01 State.reset).events = [.diag .illegalWrite 0x8000 0x01] ∧
    (busRead 0x5000 State.reset).2.events = [.diag .unmappedAccess 0x5000 0x00] := by decide

/-- Q2: one toggle for both registers. -/
theorem test_q2_shared_toggle :
    (fun u : Ppu => (u.scrollX, u.scrollY, u.vramAddr, u.w)) (writes State.reset [(0x2005, 0x12), (0x2006, 0x34)]).ppu =
      (0x12, 0x00, 0x0034, false) := by decide

/-- Q4: the backdrop alias of the palette. -/
theorem test_q4_palette_alias :
    (fun u : Ppu => (u.palette, u.vramAddr))
      (writes State.reset [(0x2006, 0x3F), (0x2006, 0x10), (0x2007, 0x2A)]).ppu = ([(0x00, 0x2A)], 0x3F11) := by decide

/-- Q6: the buffered data port, vertical mirroring. -/
theorem test_q6_data_port :
    (fun s : State => ((reads [0x2007, 0x2007] s).1, s.ppu.vram))
      (writes State.reset
        [(0x2006, 0x25), (0x2006, 0x08), (0x2007, 0x5A), (0x2006, 0x25), (0x2006, 0x08)]) =
      ([0x00, 0x5A], [(0x508, 0x5A)]) := by decide

/-- Q8: the address wraps in 14 bits. -/
theorem test_q8_address_wraps :
    (fun u : Ppu => (u.palette, u.vramAddr))
      (writes State.reset [(0x2006, 0xFF), (0x2006, 0xFF), (0x2007, 0x77)]).ppu = ([(0x1F, 0x77)], 0x0000) := by decide

/-- Q12: the OAM port moves on writes only, and wraps. -/
theorem test_q12_oam_port :
    (fun u : Ppu => (u.oam, u.oamAddr))
      (busRead 0x2004 (writes State.reset [(0x2003, 0xFE), (0x2004, 0x01), (0x2004, 0x02), (0x2004, 0x03)])).2.ppu =
      ([(0x00, 0x03), (0xFE, 0x01), (0xFF, 0x02)], 0x01) := by decide

/-- T2: the dot that enters vblank, with NMI generation on. -/
theorem test_t2_vblank_dot :
    (fun u : Ppu => (u.scanline, u.cycle, u.vblank, u.nmiPending))
      ({ State.reset.ppu with ctrl := 0x80, scanline := 240, cycle := 340 } : Ppu).dot = (241, 0, true, true) := by decide

/-- T3, T6: turning NMI generation on raises a request in vblank only. -/
theorem test_t3_t6_nmi_enable :
    (busWrite 0x2000 0x80 (State.reset.setPpu { State.reset.ppu with vblank := true })).ppu.nmiPending = true ∧
    (busWrite 0x2000 0x80 State.reset).ppu.nmiPending = false := by decide

/-- A1, A2: a length load needs an enabled channel, and disabling clears the counter. -/
theorem test_a1_a2_length :
    (busWrite 0x4003 0x08 State.reset).apu.pulse1.length = 0 ∧
    (writes State.reset [(0x4015, 0x01), (0x4003, 0x08)]).apu.pulse1.length = 254 ∧
    (writes State.reset [(0x4015, 0x01), (0x4003, 0x08), (0x4015, 0x00)]).apu.pulse1.length = 0 := by decide

/-- A3: the duty pattern and the output gates. -/
theorem test_a3_pulse_output :
    (fun c : Pulse => (List.range 8).map (fun k => ({ c with seqPos := BitVec.ofNat 3 k } : Pulse).output))
      (writes State.reset [(0x4015, 0x01), (0x4000, 0xBF), (0x4002, 0x08), (0x4003, 0x08)]).apu.pulse1 =
      [0, 15, 15, 15, 15, 0, 0, 0] := by decide

/-- A7: the first sweep updates of the two pulse channels. -/
theorem test_a7_sweep_negate :
    (fun u : Apu => ((u.pulse1.sweepClock .one).period, (u.pulse2.sweepClock .two).period))
      (writes State.reset
        [(0x4002, 0x00), (0x4003, 0x01), (0x4001, 0x89), (0x4006, 0x00), (0x4007, 0x01), (0x4005, 0x89)]).apu =
      (0x7F, 0x80) := by decide

/-- A14, A15: inhibit clears the frame IRQ, and so does a status read. -/
theorem test_a14_a15_frame_irq :
    (let s := State.reset.setApu { State.reset.apu with fc := { State.reset.apu.fc with frameIrq := true } }
     (busWrite 0x4017 0x00 s).apu.fc.frameIrq = true ∧ (busWrite 0x4017 0x40 s).apu.fc.frameIrq = false ∧
     (reads [0x4015, 0x4015] s).1 = [0x40, 0x00]) := by decide

/-- I1: NMI entry. -/
theorem test_i1_nmi_entry :
    seen (interruptible .off true false 0xE5)
      (fun t => [t.pc.toNat, t.sp.toNat, t.p.toNat, (t.ram.read 0x1FD).toNat, (t.ram.read 0x1FC).toNat, (t.ram.read 0x1FB).toNat]) =
      some [0x9000, 0xFA, 0xE5, 0x80, 0x00, 0xE5] := by decide

/-- R116: the stall is 0 at the start of an interrupt-entry step too. -/
theorem test_stall_before_entry :
    seen ((interruptible .off true false 0xE5).setDmaStall 514) (fun t => [t.dmaStall, t.stepCycles]) = some [0, 7] := by decide

/-- I2, I3, I4: the IRQ is taken where it is delivered and not masked. -/
theorem test_i2_i3_i4_irq :
    seen (interruptible .on false true 0x20) (fun t => [t.pc.toNat, t.stepCycles]) = some [0xA000, 7] ∧
    seen (interruptible .on false true 0x24) (fun t => [t.pc.toNat, t.stepCycles]) = some [0x8001, 2] ∧
    seen (interruptible .off false true 0x20) (fun t => [t.pc.toNat, t.stepCycles]) = some [0x8001, 2] := by decide

/-- I5: NMI goes first, and the IRQ stays requested. -/
theorem test_i5_nmi_first :
    (next? (step (interruptible .on true true 0x20))).map (fun t => (t.pc, t.ppu.nmiPending, t.apu.fc.frameIrq)) =
      some (0x9000, false, true) := by decide

/-! ## Witnesses: for each statement with hypotheses, a state and operands that meet them -/

/-- A result that has a next state. -/
theorem next_exists (r : Result) (h : (next? r).isSome = true) : ∃ t : State, r = .next t := by
  cases r with
  | next t => exact ⟨t, rfl⟩
  | fault f => cases h
  | refused f => cases h

/-- A state whose opcode byte is illegal, and one whose fault is latched. -/
def failed : State := (start [0x02]).setFault (some ⟨0x02, 0x8000⟩)

/-- A NOP is about to run. -/
theorem nop_runs : (start [0xEA]).Runs := by unfold State.Runs; decide

theorem witness_InstructionsAreTheTableRows :
    (∃ r : Row, r ∈ rowsOf .lda ∧ r.mode = .indirectY) ∧ opcodeOf (.ldaImm 0x00) = opcodeOf (.ldaImm 0xFF) ∧
    opcodeOf (.staAbs 0x0000) = opcodeOf (.staAbs 0xFFFF) := by decide

theorem witness_DecodeOfEncode :
    (Instr.ldaImm 0xFF).wellFormed = true ∧ (Instr.jmpInd 0x02FF).wellFormed = true ∧ Instr.brk.wellFormed = true := by decide

theorem witness_EncodeOfDecode :
    decode [0xA9, 0xFF, 0x00] = .ok (.ldaImm 0xFF) [0x00] ∧ decode [0xEA] = .ok .nop [] ∧
    decode [0x20, 0xFF, 0x80] = .ok (.jsrAbs 0x80FF) [] := by decide

theorem witness_IllegalBytesAreRejected :
    (0x02 : Byte) ∈ illegalBytes ∧ (0xFF : Byte) ∈ illegalBytes ∧ (0xEA : Byte) ∉ illegalBytes := by decide

theorem witness_StepRunsTheDecodedInstruction :
    (start [0xA9, 0x01]).Runs ∧
    (∀ k : Nat, k < (Instr.ldaImm 0x01).length → HoldsByte ((start [0xA9, 0x01]).pc + BitVec.ofNat 16 k)) ∧
    decode [(start [0xA9, 0x01]).memByte (start [0xA9, 0x01]).pc, (start [0xA9, 0x01]).memByte ((start [0xA9, 0x01]).pc + 1),
      (start [0xA9, 0x01]).memByte ((start [0xA9, 0x01]).pc + 2)] = .ok (.ldaImm 0x01) [0x00] := by
  have h0 : (start [0xA9, 0x01]).memByte (start [0xA9, 0x01]).pc = 0xA9 := by decide
  have h1 : (start [0xA9, 0x01]).memByte ((start [0xA9, 0x01]).pc + 1) = 0x01 := by decide
  have h2 : (start [0xA9, 0x01]).memByte ((start [0xA9, 0x01]).pc + 2) = 0x00 := by decide
  refine ⟨by unfold State.Runs; decide, fun k hk => Or.inr ?_, by rw [h0, h1, h2]; decide⟩
  have h : k = 0 ∨ k = 1 := by
    have : k < 2 := hk
    omega
  rcases h with rfl | rfl <;> decide

theorem witness_FetchReadsInAddressOrder :
    opcodeLength (busRead (start [0x02]).pc (start [0x02])).1 = none ∧
    opcodeLength (busRead (start [0xEA]).pc (start [0xEA])).1 = some 1 ∧
    opcodeLength (busRead (start [0xA9]).pc (start [0xA9])).1 = some 2 ∧
    opcodeLength (busRead (start [0xAD]).pc (start [0xAD])).1 = some 3 ∧
    (start [0xEA]).Runs ∧
    (∃ t : State, fetch { (start [0xEA]) with events := [], dmaStall := 0, stepCycles := 0 } = .instr .nop t) := by
  refine ⟨by decide, by decide, by decide, by decide, nop_runs, (start [0xEA]).setStepCycles 0, by decide⟩

theorem witness_EveryStepAnswersANextState :
    (failed.fault ≠ none ∧ failed.resetReq = false) ∧
    ((failed.setStopReq true).fault ≠ none ∧ (failed.setStopReq true).resetReq = false) := by decide

theorem witness_InvalidOpcodeLatchesTheFault :
    (start [0x02]).Runs ∧ (0x02 : Byte) ∈ illegalBytes ∧
    ∃ m : State, busRead (start [0x02]).pc (beginInstruction (start [0x02])) = (0x02, m) := by
  refine ⟨by unfold State.Runs; decide, by decide, (start [0x02]).setStepCycles 0, by decide⟩

theorem witness_HaltAndStop :
    (((start [0xEA]).setHalted true).halted = true ∧ ((start [0xEA]).setHalted true).resetReq = false) ∧
    ((failed.setStopReq true).stopReq = true ∧ (failed.setStopReq true).resetReq = false) ∧
    (∃ t : State, step (start [0x00]) = .next t ∧ t.halted = true) := by
  refine ⟨by decide, by decide, ?_⟩
  obtain ⟨t, ht⟩ := next_exists (step (start [0x00])) (by decide)
  have hh : (next? (step (start [0x00]))).map (fun t => t.halted) = some true := by decide
  rw [ht] at hh
  exact ⟨t, ht, by simpa [next?] using hh⟩

theorem witness_ResetStep :
    ((failed.setResetReq true).setStopReq true).resetReq = true ∧
    ((interruptible .on true true 0x20).setResetReq true).resetReq = true := by decide

/-- A state that is not the one after reset, in the middle of a frame, with contents in every memory. -/
def midway : State :=
  { (start [0xEA]) with
    ram := [(0x001, 0x12), (0x7FF, 0x34)], p := 0xE5, dmaStall := 514
    ppu := { State.reset.ppu with scanline := 261, cycle := 340, vram := [(0x7FF, 0x01)], palette := [(0x1F, 0x3F)], oam := [(0xFF, 0x80)] }
    apu := { State.reset.apu with fc := { State.reset.apu.fc with mode := true, step := 4, divider := 7456 } } }

theorem midway_inv : midway.Inv := by
  constructor
  · constructor <;> decide
  · unfold State.StatusOk; decide
  · unfold Ppu.TimerOk; decide
  · unfold FrameCounter.InRange; decide
  · decide

theorem witness_StepKeepsTheInvariant : midway.Inv ∧ ∃ t : State, step midway = .next t :=
  ⟨midway_inv, next_exists _ (by decide)⟩

theorem witness_TimeAdvancesByTheCost :
    midway.resetReq = false ∧ midway.stopReq = false ∧ midway.fault = none ∧ midway.halted = false ∧ midway.ppu.TimerOk ∧
    ∃ t : State, step midway = .next t :=
  ⟨rfl, rfl, rfl, rfl, midway_inv.timer, next_exists _ (by decide)⟩

theorem witness_ParametersNeverChange : ∃ t : State, step (start [0x8D, 0x00, 0x80]) = .next t :=
  next_exists _ (by decide)

theorem witness_ArbitrationOrder :
    (interruptible .on true true 0x20).ppu.nmiPending = true ∧
    ((interruptible .on false true 0x20).ppu.nmiPending = false ∧ (interruptible .on false true 0x20).params.irqDelivery = .on ∧
      (interruptible .on false true 0x20).apu.fc.frameIrq = true ∧ (interruptible .on false true 0x20).cpu.i = false) ∧
    ((interruptible .off false true 0x20).ppu.nmiPending = false ∧ (interruptible .off false true 0x20).params.irqDelivery = .off) ∧
    (interruptible .on false false 0x20).apu.fc.frameIrq = false ∧ (interruptible .on false true 0x24).cpu.i = true ∧
    ((start [0xEA]).setResetReq true).resetReq = true ∧
    arbitrate (interruptible .on true true 0x20) = some .nmi ∧ arbitrate (interruptible .on false true 0x20) = some .irq := by
  decide

theorem witness_InterruptEntryStep :
    (interruptible .on true true 0x20).resetReq = false ∧ (interruptible .on true true 0x20).stopReq = false ∧
    (interruptible .on true true 0x20).fault = none ∧ (interruptible .on true true 0x20).halted = false ∧
    arbitrate (interruptible .on true true 0x20) = some .nmi ∧
    arbitrate ((interruptible .on false true 0x20).setSP 0x01) = some .irq := by decide

theorem witness_RtiUndoesTheEntry :
    (interruptible .on true true 0xE5).StatusOk ∧ (softInt (start [0x00])).StatusOk ∧
    (softInt (start [0x00])).params.brkMode = .interrupt := by
  unfold State.StatusOk
  decide

theorem witness_RtsReturnsAfterJsr :
    ¬ SameRamByte (0x0100 + zext16 ((start []).setSP 0x00).sp) 0x0101 ∧
    ¬ SameRamByte (0x0100 + zext16 (((start []).setSP 0x00).sp - 1)) 0x0101 := by
  unfold SameRamByte
  decide

theorem witness_Loads :
    (Instr.ldaIndY 0xFF).mnemonic = .lda ∧ (Instr.ldxZpY 0x10).mnemonic = .ldx ∧ (Instr.ldyAbsX 0x01FF).mnemonic = .ldy := by
  decide

theorem witness_Stores :
    ((Instr.staAbsX 0x02FF).mnemonic = .sta ∧ ((start []).setA 0x11).a = 0x11) ∧
    ((Instr.stxZpY 0x10).mnemonic = .stx ∧ ((start []).setX 0x77).x = 0x77) ∧
    ((Instr.styAbs 0x8000).mnemonic = .sty ∧ ((start []).setY 0x01).y = 0x01) ∧
    SameRamByte (eaOf (.staAbs 0x0800) (start [])) 0x0000 ∧ ¬ SameRamByte (eaOf (.staAbs 0x0800) (start [])) 0x0801 ∧
    (∃ t : State, exec (.staAbs 0x0800) (start []) = .next t) := by
  refine ⟨by decide, by decide, by decide, by unfold SameRamByte; decide, by unfold SameRamByte; decide,
    next_exists _ (by decide)⟩

theorem witness_Transfers :
    Instr.tax.mnemonic = .tax ∧ Instr.tay.mnemonic = .tay ∧ Instr.txa.mnemonic = .txa ∧ Instr.tya.mnemonic = .tya ∧
    Instr.tsx.mnemonic = .tsx ∧ Instr.txs.mnemonic = .txs := by decide

theorem witness_AddWithCarry : (Instr.adcImm 0x80).mnemonic = .adc ∧ (Instr.adcIndY 0xFF).mnemonic = .adc := by decide

theorem witness_SubtractWithBorrow : (Instr.sbcImm 0xB0).mnemonic = .sbc ∧ (Instr.sbcAbsX 0x10FF).mnemonic = .sbc := by decide

theorem witness_BitwiseLogic :
    (let s := (start []).setA 0xF0
     ((Instr.andImm 0x0F).mnemonic = .and ∧ ∀ k : Nat, (0x00 : Byte).getLsbD k = (s.a.getLsbD k && (0x0F : Byte).getLsbD k)) ∧
     ((Instr.oraImm 0x0F).mnemonic = .ora ∧ ∀ k : Nat, (0xFF : Byte).getLsbD k = (s.a.getLsbD k || (0x0F : Byte).getLsbD k)) ∧
     ((Instr.eorImm 0xFF).mnemonic = .eor ∧ ∀ k : Nat, (0x0F : Byte).getLsbD k = (s.a.getLsbD k ^^ (0xFF : Byte).getLsbD k)) ∧
     (sourceOf (.andImm 0x0F) s).1 = 0x0F ∧ (sourceOf (.oraImm 0x0F) s).1 = 0x0F ∧ (sourceOf (.eorImm 0xFF) s).1 = 0xFF) := by
  have h1 : (0x00 : Byte) = 0xF0 &&& 0x0F := by decide
  have h2 : (0xFF : Byte) = 0xF0 ||| 0x0F := by decide
  have h3 : (0x0F : Byte) = 0xF0 ^^^ 0xFF := by decide
  refine ⟨⟨by decide, fun k => ?_⟩, ⟨by decide, fun k => ?_⟩, ⟨by decide, fun k => ?_⟩, by decide, by decide, by decide⟩
  · exact (congrArg (fun b : Byte => b.getLsbD k) h1).trans BitVec.getLsbD_and
  · exact (congrArg (fun b : Byte => b.getLsbD k) h2).trans BitVec.getLsbD_or
  · exact (congrArg (fun b : Byte => b.getLsbD k) h3).trans BitVec.getLsbD_xor

theorem witness_ComparesAndBitTest :
    ((Instr.cmpImm 0x10).mnemonic = .cmp ∧ ((start []).setA 0x10).a = 0x10) ∧
    ((Instr.cpxImm 0x10).mnemonic = .cpx ∧ ((start []).setX 0x0F).x = 0x0F) ∧
    ((Instr.cpyZp 0x10).mnemonic = .cpy ∧ ((start []).setY 0xFF).y = 0xFF) ∧ (Instr.bitZp 0x10).mnemonic = .bit := by decide

theorem witness_IncrementAndDecrement :
    (let s := ((start []).setX 0xFF).setRam [(0x10, 0xFF)]
     ((Instr.incZp 0x10).mnemonic = .inc ∧ (0x00 : Byte).toNat = ((sourceOf (.incZp 0x10) s).1.toNat + 1) % 256) ∧
     ((Instr.decZp 0x11).mnemonic = .dec ∧ (0xFF : Byte).toNat = ((sourceOf (.decZp 0x11) s).1.toNat + 255) % 256) ∧
     (Instr.inx.mnemonic = .inx ∧ (0x00 : Byte).toNat = (s.x.toNat + 1) % 256) ∧
     (Instr.dex.mnemonic = .dex ∧ (0xFE : Byte).toNat = (s.x.toNat + 255) % 256) ∧
     (Instr.iny.mnemonic = .iny ∧ (0x01 : Byte).toNat = (s.y.toNat + 1) % 256) ∧
     (Instr.dey.mnemonic = .dey ∧ (0xFF : Byte).toNat = (s.y.toNat + 255) % 256)) := by decide

theorem witness_ShiftsAndRotates :
    (let s := (((start []).setA 0x81).setP 0x25).setRam [(0x10, 0x81)]
     (Instr.aslA.mnemonic = .asl ∧ (0x02 : Byte).toNat = (2 * (sourceOf .aslA s).1.toNat) % 256 ∧
       true = (sourceOf .aslA s).1.getLsbD 7 ∧ Instr.aslA.mode = .accumulator) ∧
     ((Instr.lsrZp 0x10).mnemonic = .lsr ∧ (0x40 : Byte).toNat = (sourceOf (.lsrZp 0x10) s).1.toNat / 2 ∧
       true = (sourceOf (.lsrZp 0x10) s).1.getLsbD 0 ∧ (Instr.lsrZp 0x10).mode ≠ .accumulator) ∧
     ((Instr.rolZp 0x10).mnemonic = .rol ∧ (0x03 : Byte).toNat = (2 * (sourceOf (.rolZp 0x10) s).1.toNat) % 256 + 1 ∧
       true = (sourceOf (.rolZp 0x10) s).1.getLsbD 7 ∧ s.cpu.c = true) ∧
     (Instr.rorA.mnemonic = .ror ∧ (0xC0 : Byte).toNat = (sourceOf .rorA s).1.toNat / 2 + 128 * 1 ∧
       true = (sourceOf .rorA s).1.getLsbD 0)) := by decide

theorem witness_JumpsCallsAndReturns :
    ((Instr.jmpAbs 0x9000).mnemonic = .jmp ∧ (Instr.jmpAbs 0x9000).mode = .absolute) ∧
    ((Instr.jmpInd 0x02FF).mnemonic = .jmp ∧ (Instr.jmpInd 0x02FF).mode = .indirect) := by decide

theorem witness_Break :
    (start [0x00]).params.brkMode = .halt ∧ (softInt (start [0x00])).params.brkMode = .interrupt := by decide

theorem witness_Branches :
    [(Instr.bcc 0x80).mode, (Instr.bcs 0x7F).mode, (Instr.beq 0x00).mode, (Instr.bne 0xFF).mode] =
      [.relative, .relative, .relative, .relative] ∧
    [(Instr.bmi 0x80).mode, (Instr.bpl 0x7F).mode, (Instr.bvc 0x00).mode, (Instr.bvs 0xFF).mode] =
      [.relative, .relative, .relative, .relative] ∧
    branchTaken .bcc (start []).cpu = true ∧ branchTaken .bcs (start []).cpu = false := by decide

theorem witness_FlagInstructionsAndNop :
    [Instr.clc.mnemonic, Instr.sec.mnemonic, Instr.cli.mnemonic, Instr.sei.mnemonic] = [.clc, .sec, .cli, .sei] ∧
    [Instr.cld.mnemonic, Instr.sed.mnemonic, Instr.clv.mnemonic, Instr.nop.mnemonic] = [.cld, .sed, .clv, .nop] ∧
    ((start []).setP 0x25).cpu.c = true := by decide

theorem witness_DirectOperandAddresses :
    [(Instr.ldaZp 0xFF).mode, (Instr.ldaZpX 0xFF).mode, (Instr.ldxZpY 0xFF).mode] = [.zeroPage, .zeroPageX, .zeroPageY] ∧
    [(Instr.ldaAbs 0xFFFF).mode, (Instr.ldaAbsX 0xFFFF).mode, (Instr.ldaAbsY 0x00FF).mode] =
      [.absolute, .absoluteX, .absoluteY] := by decide

theorem witness_PointerOperandAddresses :
    [(Instr.ldaIndX 0xFF).mode, (Instr.ldaIndY 0xFF).mode, (Instr.jmpInd 0x02FF).mode] =
      [.indirectX, .indirectY, .indirect] := by decide

theorem witness_RegistersWrittenOnlyAsListed :
    (∃ t : State, exec (.staAbs 0x0200) (start []) = .next t) ∧ ¬ writesReg (.staAbs 0x0200) (start []).params.brkMode .a ∧
    ¬ writesReg (.staAbs 0x0200) (start []).params.brkMode .x ∧ ¬ writesReg (.staAbs 0x0200) (start []).params.brkMode .y ∧
    ¬ writesReg (.staAbs 0x0200) (start []).params.brkMode .sp := by
  refine ⟨next_exists _ (by decide), ?_⟩
  unfold writesReg
  decide

theorem witness_FlagsWrittenOnlyAsListed :
    (∃ t : State, exec (.ldaImm 0x00) (start []) = .next t) ∧
    ¬ writesFlag (.ldaImm 0x00) .halt .c ∧ ¬ writesFlag (.ldaImm 0x00) .halt .i ∧ ¬ writesFlag (.ldaImm 0x00) .halt .d ∧
    ¬ writesFlag (.ldaImm 0x00) .halt .v ∧ ¬ writesFlag (.ldaImm 0x00) .halt .b ∧ ¬ writesFlag (.ldaImm 0x00) .halt .u ∧
    ¬ writesFlag .txs .halt .z ∧ ¬ writesFlag .txs .halt .n := by
  refine ⟨next_exists _ (by decide), ?_⟩
  unfold writesFlag
  decide

theorem witness_MemoryWrittenOnlyWhereStored :
    (∃ t : State, exec (.staAbs 0x0200) (start []) = .next t) ∧
    ∀ e : Word, e ∈ storesTo (.staAbs 0x0200) (start []) → ¬ SameRamByte e 0x0201 := by
  refine ⟨next_exists _ (by decide), fun e he => ?_⟩
  have h : e = 0x0200 := by
    have hs : storesTo (.staAbs 0x0200) (start []) = [0x0200] := by decide
    rw [hs] at he
    simpa using he
  subst h
  unfold SameRamByte
  decide

theorem witness_DecimalFlagIsInert :
    (Instr.adcImm 0x09).mnemonic ∉ [.php, .brk, .plp, .rti, .cld, .sed] ∧
    ∃ t : State, exec (.adcImm 0x09) ((start []).setA 0x09) = .next t :=
  ⟨by decide, next_exists _ (by decide)⟩

theorem witness_OnlyInstructionsChangeRegisters :
    (∃ t : State, step ((start [0xA9, 0x01]).setA 0x00) = .next t ∧ t.reg .a ≠ ((start [0xA9, 0x01]).setA 0x00).reg .a) ∧
    (∃ t : State, step (interruptible .on true true 0x20) = .next t ∧ t.reg .sp ≠ (interruptible .on true true 0x20).reg .sp) := by
  constructor
  · obtain ⟨t, ht⟩ := next_exists (step ((start [0xA9, 0x01]).setA 0x00)) (by decide)
    have h : (next? (step ((start [0xA9, 0x01]).setA 0x00))).map (fun t => t.reg .a) = some 0x01 := by decide
    rw [ht] at h
    have h' : t.reg .a = 0x01 := by simpa [next?] using h
    exact ⟨t, ht, by rw [h']; decide⟩
  · obtain ⟨t, ht⟩ := next_exists (step (interruptible .on true true 0x20)) (by decide)
    have h : (next? (step (interruptible .on true true 0x20))).map (fun t => t.reg .sp) = some 0xFA := by decide
    rw [ht] at h
    have h' : t.reg .sp = 0xFA := by simpa [next?] using h
    exact ⟨t, ht, by rw [h']; decide⟩

theorem witness_RamIsMirrored :
    ((0x1FFF : Word).toNat < 0x2000 ∧ (0x07FF : Word).toNat < 0x2000 ∧ (0x1FFF : Word).toNat % 0x800 = (0x07FF : Word).toNat % 0x800) ∧
    ((0x0000 : Word).toNat < 0x2000 ∧ (0x0801 : Word).toNat < 0x2000 ∧
      (0x0000 : Word).toNat % 0x800 ≠ (0x0801 : Word).toNat % 0x800) := by decide

theorem witness_ProgramRom :
    0x8000 ≤ (0x8000 : Word).toNat ∧ 0x8000 ≤ (0xFFFF : Word).toNat ∧ 0xC000 ≤ (0xC000 : Word).toNat ∧
    (start []).params.prgSize = .k16 ∧
    ({ (start []) with params := { (start []).params with prgSize := .k32 } } : State).params.prgSize = .k32 := by decide

theorem witness_RejectedAccesses :
    (0x4000 ≤ (0x4000 : Word).toNat ∧ (0x4014 : Word).toNat ≤ 0x4014) ∧ (0x4017 : Word).toNat = 0x4017 ∧
    (0x4018 ≤ (0x4018 : Word).toNat ∧ (0x7FFF : Word).toNat ≤ 0x7FFF) ∧
    (0x2000 ≤ (0x3FFE : Word).toNat ∧ (0x3FFE : Word).toNat ≤ 0x3FFF ∧ (0x3FFE : Word).toNat % 8 ∈ [0, 1, 3, 5, 6]) ∧
    (0x2000 ≤ (0x3FFA : Word).toNat ∧ (0x3FFA : Word).toNat ≤ 0x3FFF ∧ (0x3FFA : Word).toNat % 8 = 2) := by decide

theorem witness_ReadSideEffects :
    ((0x2000 : Word).toNat % 8 = (0x3FF8 : Word).toNat % 8 ∧ 0x2000 ≤ (0x3FF8 : Word).toNat ∧ (0x3FF8 : Word).toNat ≤ 0x3FFF) ∧
    HoldsByte 0x1FFF ∧ HoldsByte 0x8000 ∧ ¬ HoldsByte 0x2000 ∧ (0x3FFC : Word).toNat % 8 = 4 ∧
    ¬ (0x2000 ≤ (0x4015 : Word).toNat ∧ (0x4015 : Word).toNat ≤ 0x3FFF ∧ (0x4015 : Word).toNat % 8 ∈ [2, 7]) ∧
    (0x4016 : Word).toNat ≠ 0x4015 := by
  unfold HoldsByte
  decide

theorem witness_OamDmaCopiesThePage :
    HoldsByte (word 0x00 0x00) ∧ HoldsByte (word 0x1F 0x00) ∧ HoldsByte (word 0x80 0x00) ∧ HoldsByte (word 0xFF 0x00) ∧
    ¬ HoldsByte (word 0x20 0x00) := by
  unfold HoldsByte
  decide

theorem witness_ControlWriteAndStatusRead :
    (0x2000 ≤ (0x2000 : Word).toNat ∧ (0x2000 : Word).toNat % 8 = 0) ∧
    ((0x3FFA : Word).toNat ≤ 0x3FFF ∧ (0x3FFA : Word).toNat % 8 = 2) := by decide

theorem witness_PortAndToggleWrites :
    [(0x2001 : Word).toNat % 8, (0x3FFB : Word).toNat % 8, (0x2004 : Word).toNat % 8, (0x2005 : Word).toNat % 8,
      (0x3FFE : Word).toNat % 8] = [1, 3, 4, 5, 6] ∧
    State.reset.ppu.w = false ∧ (busWrite 0x2005 0x00 State.reset).ppu.w = true ∧
    0x2000 ≤ (0x2001 : Word).toNat ∧ (0x3FFE : Word).toNat ≤ 0x3FFF := by decide

theorem witness_DataPort :
    (0x1FFF : BitVec 14).toNat ≤ 0x1FFF ∧ (0x2000 ≤ (0x2000 : BitVec 14).toNat ∧ (0x3EFF : BitVec 14).toNat ≤ 0x3EFF) ∧
    0x3F00 ≤ (0x3F00 : BitVec 14).toNat ∧
    (State.reset.setPpu { State.reset.ppu with vramAddr := 0x3EFF }).ppu.vramAddr.toNat = 0x3EFF ∧
    (State.reset.setPpu { State.reset.ppu with vramAddr := 0x3F00 }).ppu.vramAddr.toNat = 0x3F00 := by decide

theorem witness_NametableRoundTrip :
    State.reset.ppu.w = false ∧ State.reset.ppu.ctrl.getLsbD 2 = false ∧
    (0x2000 ≤ (0x2000 : BitVec 14).toNat ∧ (0x2000 : BitVec 14).toNat ≤ 0x3EFF ∧ (0x2000 : BitVec 14).toNat ≠ 0x3EFF) ∧
    (0x2000 ≤ (0x3EFF : BitVec 14).toNat ∧ (0x3EFF : BitVec 14).toNat ≤ 0x3EFF) := by decide

theorem witness_NametableAndPaletteMirroring :
    (0x2000 ≤ (0x2000 : BitVec 14).toNat ∧ (0x3EFF : BitVec 14).toNat ≤ 0x3EFF) ∧
    (0x3F00 ≤ (0x3F10 : BitVec 14).toNat ∧ (0x3F10 : BitVec 14).toNat % 0x20 ∈ [0x10, 0x14, 0x18, 0x1C]) ∧
    (0x3F00 ≤ (0x3FFF : BitVec 14).toNat ∧ (0x3FFF : BitVec 14).toNat % 0x20 ∉ [0x10, 0x14, 0x18, 0x1C]) := by decide

theorem witness_FrameOfDots :
    (Ppu.afterReset [] [] []).scanline = 0 ∧ (Ppu.afterReset [] [] []).cycle = 0 ∧
    ({ Ppu.afterReset [] [] [] with ctrl := 0x80 } : Ppu).scanline = 0 := by decide

/-- One dot before vblank, NMI generation on. -/
def beforeVblank : State := State.reset.setPpu { State.reset.ppu with ctrl := 0x80, scanline := 240, cycle := 340 }

theorem witness_FrameReadyAtVblank :
    beforeVblank.ppu.TimerOk ∧ 1 ≤ 521 ∧ beforeVblank.ppu.scanline * 341 + beforeVblank.ppu.cycle < 82181 ∧
    82181 ≤ beforeVblank.ppu.scanline * 341 + beforeVblank.ppu.cycle + 3 * 1 ∧ beforeVblank.ppu.ctrl.getLsbD 7 = true ∧
    beforeVblank.ppu.nmiPending = false ∧ State.reset.ppu.TimerOk ∧
    ¬ (82181 ≤ State.reset.ppu.scanline * 341 + State.reset.ppu.cycle + 3 * 521) := by
  refine ⟨⟨by decide, by decide⟩, by norm_num, ?_, ?_, by decide, by decide, ⟨by decide, by decide⟩, ?_⟩
  · rw [show beforeVblank.ppu.scanline = 240 from rfl, show beforeVblank.ppu.cycle = 340 from rfl]
    norm_num
  · rw [show beforeVblank.ppu.scanline = 240 from rfl, show beforeVblank.ppu.cycle = 340 from rfl]
    norm_num
  · rw [show State.reset.ppu.scanline = 0 from rfl, show State.reset.ppu.cycle = 21 from rfl]
    norm_num

theorem witness_FrameCounterSequence :
    Apu.afterReset.fc.step = 0 ∧ Apu.afterReset.fc.divider = 0 ∧
    ({ Apu.afterReset with fc := { FrameCounter.afterReset with mode := true } } : Apu).fc.step = 0 := by decide

theorem witness_FrameCounterClocks :
    (midway.apu.fc.InRange ∧ midway.apu.fc.divider = 7456) ∧
    ({ FrameCounter.afterReset with step := 3, divider := 7456 } : FrameCounter).InRange ∧
    Apu.afterReset.fc.divider ≠ 7456 := by
  unfold FrameCounter.InRange
  decide

theorem witness_ChannelRegisterWrites :
    (0x400C ≤ (0x400C : Word).toNat ∧ (0x4013 : Word).toNat ≤ 0x4013) := by decide

theorem witness_EnvelopeDecay :
    ({ Envelope.afterReset with start := true } : Envelope).start = true ∧
    (Envelope.afterReset.start = false ∧ Envelope.afterReset.divider = Envelope.afterReset.volume) ∧
    (({ Envelope.afterReset with volume := 15, divider := 15, decay := 15 } : Envelope).divider = 15) := by decide

theorem witness_SweepUnit :
    (let c : Pulse := { Pulse.afterReset with period := 0x100, sweep := { Sweep.afterReset with enabled := true, shift := 1 } }
     c.sweep.divider = 0 ∧ c.sweep.enabled = true ∧ c.sweep.shift ≠ 0 ∧ 8 ≤ c.period.toNat ∧
     (c.period.toNat : Int) + (c.period.toNat / 2 ^ c.sweep.shift.toNat : Nat) ≤ 0x7FF) ∧
    (Pulse.afterReset.sweep.enabled = false) ∧
    ({ Sweep.afterReset with divider := 7, reload := true } : Sweep).reload = true := by decide

theorem witness_PulseChannel :
    ({ Pulse.afterReset with period := 0x7FF, timer := 0x7FF } : Pulse).timer =
      ({ Pulse.afterReset with period := 0x7FF, timer := 0x7FF } : Pulse).period ∧
    (let c : Pulse := { Pulse.afterReset with duty := 2, seqPos := 4, period := 8, length := 1 }
     decide (c.seqPos.toNat ∈ [1, 2, 3, 4]) = true ∧ c.length ≠ 0 ∧ 8 ≤ c.period.toNat) ∧
    Pulse.afterReset.period.toNat ≤ 7 := by decide

theorem witness_TriangleChannel :
    ({ Triangle.afterReset with period := 0x7FF, timer := 0x7FF } : Triangle).timer =
      ({ Triangle.afterReset with period := 0x7FF, timer := 0x7FF } : Triangle).period ∧
    (let t : Triangle := { Triangle.afterReset with length := 1, linear := 1 }
     t.length ≠ 0 ∧ t.linear ≠ 0) ∧
    Triangle.afterReset.length = 0 := by decide


end Sys2Proof.Tests
end

section
/-! SUPPORT. The statements of the scope (O6 to O9, O15): which instruction a fetch gives, that every instruction and every step
answers, what a failed machine does, and that the parameters stand. -/

namespace Sys2Proof

/-! ## Formats of the opcode map -/

/-- The instructions an entry builds have the length of its format (R130, R133). -/
def Entry.LengthOk : Entry → Prop
  | .f1 i => i.length = 1
  | .f2 build => ∀ d, (build d).length = 2
  | .f3 build => ∀ w, (build w).length = 3
  | .illegal => True

theorem opcodeMap_lengthOk : ∀ row ∈ opcodeMap, ∀ e ∈ row, e.LengthOk := by
  simp only [opcodeMap, opcodeRow0, opcodeRow1, opcodeRow2, opcodeRow3, opcodeRow4, opcodeRow5, opcodeRow6, opcodeRow7,
    opcodeRow8, opcodeRow9, opcodeRowA, opcodeRowB, opcodeRowC, opcodeRowD, opcodeRowE, opcodeRowF,
    List.cons_append, List.nil_append, List.forall_mem_cons, List.not_mem_nil, false_imp_iff, implies_true, and_true, true_and,
    Entry.LengthOk]
  and_intros <;> intros <;> rfl

/-- What holds of every element of a list and of the default holds of every indexed element. -/
theorem getD_of_forall_mem {α : Type} {P : α → Prop} {l : List α} {d : α} (h : ∀ x ∈ l, P x) (hd : P d) (n : Nat) :
    P (l.getD n d) := by
  rcases Nat.lt_or_ge n l.length with hn | hn
  · rw [List.getD_eq_getElem l d hn]; exact h _ (List.getElem_mem hn)
  · rw [List.getD_eq_default l d hn]; exact hd

theorem lookup_lengthOk (op : Byte) : (lookup op).LengthOk :=
  have row : ∀ e ∈ opcodeMap.getD (op.toNat / 16) [], e.LengthOk :=
    getD_of_forall_mem (P := fun r : List Entry => ∀ e ∈ r, e.LengthOk) opcodeMap_lengthOk (by simp) _
  getD_of_forall_mem (P := Entry.LengthOk) (d := .illegal) row True.intro _

/-- Bytes that decode are a legal opcode, the operand bytes of its format, and the rest. -/
theorem decode_ok_split {op : Byte} {bytes rest : List Byte} {i : Instr} (h : decode (op :: bytes) = .ok i rest) :
    ∃ operands, bytes = operands ++ rest ∧ i.length = operands.length + 1 ∧ opcodeLength op = some (operands.length + 1) ∧
      decode (op :: operands) = .ok i [] := by
  have hl := lookup_lengthOk op
  unfold decode at h
  dsimp only at h
  split at h
  · next e => cases h; rw [e] at hl; exact ⟨[], rfl, hl, by rw [opcodeLength, e]; rfl, by simp [decode, e]⟩
  · next d _ e => cases h; rw [e] at hl; exact ⟨[d], rfl, hl d, by rw [opcodeLength, e]; rfl, by simp [decode, e]⟩
  · next lo hi _ e =>
    cases h; rw [e] at hl; exact ⟨[lo, hi], rfl, hl _, by rw [opcodeLength, e]; rfl, by simp [decode, e]⟩
  · cases h
  · cases h

/-- An opcode byte of length `n + 1` and `n` operand bytes decode. -/
theorem decode_of_opcodeLength {op : Byte} {operands : List Byte} (h : opcodeLength op = some (operands.length + 1)) :
    ∃ i, decode (op :: operands) = .ok i [] := by
  unfold opcodeLength at h
  cases e : lookup op with
  | f1 i =>
    obtain rfl : operands = [] := by simpa [e, Entry.length] using h
    exact ⟨i, by simp [decode, e]⟩
  | f2 build =>
    obtain ⟨d, rfl⟩ : ∃ d, operands = [d] := List.length_eq_one_iff.1 (by simpa [e, Entry.length] using h.symm)
    exact ⟨build d, by simp [decode, e]⟩
  | f3 build =>
    obtain ⟨lo, hi, rfl⟩ : ∃ lo hi, operands = [lo, hi] := List.length_eq_two.1 (by simpa [e, Entry.length] using h.symm)
    exact ⟨build (Machine.word hi lo), by simp [decode, e]⟩
  | illegal => simp [e, Entry.length] at h

theorem opcodeLength_cases (op : Byte) :
    opcodeLength op = none ∨ opcodeLength op = some 1 ∨ opcodeLength op = some 2 ∨ opcodeLength op = some 3 := by
  unfold opcodeLength
  cases lookup op <;> simp [Entry.length]

theorem opcodeLength_of_illegal : ∀ op ∈ Machine.illegalBytes, opcodeLength op = none := by
  have none_has_length : Machine.illegalBytes.all (fun op => (opcodeLength op).isNone) = true := by decide
  exact fun op hop => Option.isNone_iff_eq_none.1 (List.all_eq_true.1 none_has_length op hop)

end Sys2Proof

namespace Sys2Proof.Machine

/-! ## Fetching -/

@[simp] theorem fetchOperands_length (n : Nat) (a : Word) (s : State) : (fetchOperands n a s).1.length = n := by
  induction n generalizing a s with
  | zero => rfl
  | succ n ih => exact congrArg (· + 1) (ih _ _)

/-- The addresses after `a + 1` are addresses after `a`. -/
theorem add_one_add_ofNat (a : Word) (k : Nat) : a + 1 + BitVec.ofNat 16 k = a + BitVec.ofNat 16 (k + 1) := by
  rw [BitVec.add_assoc, Nat.add_comm k 1, BitVec.ofNat_add]; rfl

/-- Operand bytes held in memory are read with no side effect (R85). -/
theorem fetchOperands_memory (bytes : List Byte) (a : Word) (s : State)
    (h : ∀ (k : Nat) (hk : k < bytes.length),
      HoldsByte (a + BitVec.ofNat 16 k) ∧ s.memByte (a + BitVec.ofNat 16 k) = bytes[k]) :
    fetchOperands bytes.length a s = (bytes, s) := by
  induction bytes generalizing a with
  | nil => rfl
  | cons b bs ih =>
    obtain ⟨hold, hb⟩ : HoldsByte a ∧ s.memByte a = b := by simpa using h 0 (Nat.succ_pos _)
    have rest : fetchOperands bs.length (a + 1) s = (bs, s) :=
      ih (a + 1) fun k hk => by simpa only [add_one_add_ofNat, List.getElem_cons_succ] using h (k + 1) (Nat.succ_lt_succ hk)
    rw [List.length_cons, fetchOperands, busRead_memory a s ((holdsByte_iff a).1 hold), hb]
    dsimp only
    rw [rest]

/-- An illegal opcode byte ends the fetch (R400). -/
theorem fetch_of_illegal {s m : State} {op : Byte} (hread : busRead s.pc s = (op, m)) (h : opcodeLength op = none) :
    fetch s = .illegal op m := by
  simp only [fetch, hread, h]

/-- A legal opcode byte and the operand bytes read after it are the fetched instruction (R131). -/
theorem fetch_of_decode {s m t : State} {op : Byte} {n : Nat} {operands rest : List Byte} {i : Instr}
    (hread : busRead s.pc s = (op, m)) (hops : fetchOperands n (s.pc + 1) m = (operands, t))
    (hl : opcodeLength op = some (n + 1)) (hd : decode (op :: operands) = .ok i rest) : fetch s = .instr i t := by
  simp only [fetch, hread, hl, Nat.add_sub_cancel, hops, hd]

/-- A fetch of a legal opcode gives the instruction that its bytes decode to, none left over (R81, R131). -/
theorem fetch_of_opcodeLength {s : State} {n : Nat} (hl : opcodeLength (busRead s.pc s).1 = some (n + 1)) :
    ∃ i, decode ((busRead s.pc s).1 :: (fetchOperands n (s.pc + 1) (busRead s.pc s).2).1) = .ok i [] ∧
      fetch s = .instr i (fetchOperands n (s.pc + 1) (busRead s.pc s).2).2 := by
  obtain ⟨i, hi⟩ := decode_of_opcodeLength (operands := (fetchOperands n (s.pc + 1) (busRead s.pc s).2).1) (by simpa using hl)
  exact ⟨i, hi, fetch_of_decode rfl rfl hl hi⟩

/-- Where the bytes at `PC` are memory and decode to `i`, the fetch gives `i` and changes nothing (R85, R131). -/
theorem fetch_of_memory {s : State} {i : Instr} {rest : List Byte}
    (hold : ∀ k : Nat, k < i.length → HoldsByte (s.pc + BitVec.ofNat 16 k))
    (hd : decode [s.memByte s.pc, s.memByte (s.pc + 1), s.memByte (s.pc + 2)] = .ok i rest) :
    fetch s = .instr i s := by
  obtain ⟨operands, hb, hi, hl, hd⟩ := decode_ok_split hd
  rw [hi] at hold
  have opcode : busRead s.pc s = (s.memByte s.pc, s) :=
    busRead_memory _ _ ((holdsByte_iff _).1 (by simpa using hold 0 (Nat.succ_pos _)))
  have read : fetchOperands operands.length (s.pc + 1) s = (operands, s) := by
    refine fetchOperands_memory operands _ s fun k hk => ?_
    have byte : [s.memByte (s.pc + 1), s.memByte (s.pc + 2)][k]? = some operands[k] := by
      rw [hb, List.getElem?_append_left hk, List.getElem?_eq_getElem hk]
    rw [add_one_add_ofNat]
    refine ⟨hold (k + 1) (Nat.succ_lt_succ hk), ?_⟩
    match k with
    | 0 => simpa using byte
    | 1 => simpa using byte
    | k + 2 => simp at byte
  exact fetch_of_decode opcode read hl hd

/-! ## Every instruction and every step answers -/

theorem complete_answers (cycles : Nat) (s : State) : ∃ t, complete cycles s = .next t :=
  ⟨_, (complete_next_iff _ _ _).2 rfl⟩

theorem advance_answers (len cycles : Nat) (s : State) : ∃ t, advance len cycles s = .next t := complete_answers _ _

theorem readBy_answers (i : Instr) (s : State) (effect : Byte → State → State) : ∃ t, readBy i s effect = .next t :=
  advance_answers _ _ _

theorem storeBy_answers (i : Instr) (s : State) (v : Byte) : ∃ t, storeBy i s v = .next t := advance_answers _ _ _

theorem impliedBy_answers (i : Instr) (s : State) : ∃ t, impliedBy i s = .next t := advance_answers _ _ _

theorem modifyBy_answers (i : Instr) (s : State) (op : Byte → Byte → Byte × Byte) : ∃ t, modifyBy i s op = .next t := by
  unfold modifyBy
  split <;> exact advance_answers _ _ _

theorem branch_answers (cond : Bool) (off : Byte) (s : State) : ∃ t, branch cond off s = .next t :=
  ⟨_, (branch_next_iff _ _ _ _).2 rfl⟩

theorem execBrk_answers (s : State) : ∃ t, execBrk s = .next t := by
  unfold execBrk
  split
  · exact ⟨_, rfl⟩
  · exact complete_answers _ _

/-- No instruction faults and none is refused: each has one of the shapes above, and every shape answers. -/
theorem exec_answers (i : Instr) (s : State) : ∃ t, exec i s = .next t := by
  rw [exec_eq]
  unfold execByMnemonic
  split <;> simp only [readBy_answers, storeBy_answers, impliedBy_answers, modifyBy_answers, complete_answers, branch_answers,
    execBrk_answers]

/-- A fetched instruction is executed, and the step is closed (R9, R131). -/
theorem executeInstruction_of_instr {s t u : State} {i : Instr} (hf : fetch (beginInstruction s) = .instr i t)
    (hx : exec i t = .next u) : executeInstruction s = .next (afterInstruction u) := by
  simp only [executeInstruction, hf, hx, closeInstruction]

/-- An illegal opcode byte latches the fault (R401). -/
theorem executeInstruction_of_illegal {s t : State} {op : Byte} (hf : fetch (beginInstruction s) = .illegal op t) :
    executeInstruction s = .next (t.setFault (some ⟨op, s.pc⟩)) := by
  simp only [executeInstruction, hf]

theorem executeInstruction_answers (s : State) : ∃ t, executeInstruction s = .next t := by
  cases hf : fetch (beginInstruction s) with
  | illegal op t => exact ⟨_, executeInstruction_of_illegal hf⟩
  | instr i t =>
    obtain ⟨u, hx⟩ := exec_answers i t
    exact ⟨_, executeInstruction_of_instr hf hx⟩

theorem step_answers (s : State) : ∃ t, step s = .next t := by
  cases hr : s.resetReq with
  | true => exact ⟨_, step_of_resetReq hr⟩
  | false =>
    cases hs : (s.stopped || s.stopReq) with
    | true => exact ⟨_, step_of_stopped hr hs⟩
    | false =>
      obtain ⟨hf, hh, hq⟩ := (stopped_or_stopReq_eq_false s).1 hs
      rw [step_of_running hr hf hh hq]
      cases arbitrate s with
      | some k => exact ⟨_, rfl⟩
      | none => exact executeInstruction_answers s

/-! ## A failed machine -/

/-- Stopping, the request left aside, sets the stopped flag where it is requested and nothing else (R434). -/
theorem sampleStop_setStopReq (s : State) (b : Bool) :
    (sampleStop s).setStopReq b = (s.setHalted (s.halted || s.stopReq)).setStopReq b := by
  cases h : s.stopReq with
  | true => rw [sampleStop_of_req h, Bool.or_true]; rfl
  | false => rw [sampleStop_of_not h, Bool.or_false]; rfl

/-- With no reset requested, a failed machine's step samples the stop request and does nothing else (R9, R401). -/
theorem step_of_fault {s : State} (hf : s.fault ≠ none) (hr : s.resetReq = false) : step s = .next (sampleStop s) :=
  step_of_stopped hr (by simp [State.stopped, Option.isSome_iff_ne_none.2 hf])

/-- A failed machine that nothing is asked of stays as it is (R401). -/
theorem step_of_fault_idle {s : State} (hf : s.fault ≠ none) (hr : s.resetReq = false) (hq : s.stopReq = false) :
    step s = .next s := by
  rw [step_of_fault hf hr, sampleStop_of_not hq]

/-- A failed machine that is asked to stop sets the stopped flag and nothing else (R9, R401). -/
theorem step_of_fault_stopReq {s : State} (hf : s.fault ≠ none) (hr : s.resetReq = false) (hq : s.stopReq = false) :
    ∃ u, step (s.setStopReq true) = .next u ∧ u.setStopReq false = s.setHalted true := by
  refine ⟨_, step_of_fault hf hr, ?_⟩
  rw [sampleStop_setStopReq, State.setStopReq_stopReq, Bool.or_true, ← hq]
  rfl

/-! ## The parameters -/

@[simp] theorem sampleStop_params (s : State) : (sampleStop s).params = s.params := by
  obtain ⟨b, c, h⟩ := sampleStop_touches s; rw [h]

@[simp] theorem notifyObserver_params (s : State) : (notifyObserver s).params = s.params := by
  obtain ⟨es, h⟩ := notifyObserver_touches s; rw [h]

@[simp] theorem afterInstruction_params (s : State) : (afterInstruction s).params = s.params := by
  unfold afterInstruction
  split <;> simp

@[simp] theorem interruptStep_params (k : Interrupt) (s : State) : (interruptStep k s).params = s.params := by
  simp [interruptStep, beginStep, interruptEntry_eq]

@[simp] theorem resetStep_params (s : State) : (resetStep s).params = s.params := by
  simp [resetStep, beginStep, resetSequence_eq, resetRegisters]

theorem fetch_params {s : State} {f : Fetched} (h : fetch s = f) : f.state.params = s.params := h ▸ (Untimed.fetch s).params

/-! ## The statements -/

/-- Settles O7: the operand reads are those of `fetchOperands`, and every legal opcode's bytes decode. -/
theorem fetchReadsInAddressOrder : Obligations.FetchReadsInAddressOrder := by
  intro s
  have second : s.pc + 1 + 1 = s.pc + 2 := by rw [BitVec.add_assoc]; rfl
  refine ⟨fetch_of_illegal rfl, fetch_of_opcodeLength, fetch_of_opcodeLength, fun hl => ?_, opcodeLength_cases _, ?_⟩
  · simpa only [fetchOperands, second] using fetch_of_opcodeLength hl
  · intro hs i t hf
    obtain ⟨u, hx⟩ := exec_answers i t
    exact ⟨u, hx, (step_of_runs s hs).trans (executeInstruction_of_instr hf hx)⟩

/-- Settles O8: every shape of instruction and every kind of step answers a next state. -/
theorem everyStepAnswersANextState : Obligations.EveryStepAnswersANextState :=
  ⟨exec_answers, step_answers, fun s hf hr =>
    ⟨sampleStop s, step_of_fault hf hr, sampleStop_setStopReq s s.stopReq⟩⟩

/-- Settles O9: the illegal byte ends the fetch at its one read, and a failed machine's step only samples the stop request. -/
theorem invalidOpcodeLatchesTheFault : Obligations.InvalidOpcodeLatchesTheFault := by
  intro s m op hs hop hread
  have hf : fetch (beginInstruction s) = .illegal op m :=
    fetch_of_illegal hread (opcodeLength_of_illegal op hop)
  obtain ⟨u, v, n, es, hm⟩ := busRead_touches s.pc (beginInstruction s)
  obtain rfl : m = _ := hread ▸ hm
  have hstep := (step_of_runs s hs).trans (executeInstruction_of_illegal hf)
  obtain ⟨hr, hq, -⟩ := hs
  exact ⟨_, hstep, rfl, rfl, rfl, rfl, rfl, step_of_fault_idle (Option.some_ne_none _) hr hq,
    step_of_fault_stopReq (Option.some_ne_none _) hr hq⟩

/-- Settles O15, by the kinds of step. -/
theorem parametersNeverChange : Obligations.ParametersNeverChange := by
  intro s t h
  rcases step_cases h with ⟨-, ht⟩ | ⟨-, -, ht⟩ | ⟨-, -, -, -, ⟨k, -, ht⟩ | ⟨-, op, u, hf, ht⟩ | ⟨-, i, u, v, hf, hx, ht⟩⟩
  · rw [ht, resetStep_params, sampleStop_params]
  · rw [ht, sampleStop_params]
  · rw [ht, interruptStep_params]
  · rw [ht, State.setFault_params]
    exact fetch_params hf
  · rw [ht, afterInstruction_params]
    exact (Untimed.exec hx).params.trans (fetch_params hf)

/-- Settles O6: bytes of memory are fetched with no side effect, and the step is closed as the definition says. -/
theorem stepRunsTheDecodedInstruction : Obligations.StepRunsTheDecodedInstruction := by
  intro s i rest hs hold hd
  have hf : fetch (beginInstruction s) = .instr i (beginInstruction s) := fetch_of_memory hold hd
  obtain ⟨u, hx⟩ := exec_answers i { s with events := [], dmaStall := 0, stepCycles := 0 }
  refine ⟨?_, fun t => rfl⟩
  rw [step_of_runs s hs, executeInstruction_of_instr hf hx, hx]
  rfl

end Sys2Proof.Machine
end

section
/-! SUPPORT. The statements of the state (O11 to O13, O36, O37, O39, O40): the reset step, what each instruction and each step
leaves of the registers and flags, the invariant, and that nothing but the writers of `D` sees it. -/

namespace Sys2Proof.Machine

/-! ## The reset step (R440) -/

/-- The batch of seven cycles takes the PPU that the reset sequence leaves to dot 21 (R440). -/
theorem dots_afterReset (vram palette oam : Memory) :
    Ppu.dots (3 * Config.resetCycles) (Ppu.afterReset vram palette oam) =
      { Ppu.afterReset vram palette oam with cycle := 21 } :=
  Ppu.dots_within_line 21 _ (by decide : 0 + 21 < 341)

/-- The batch of seven cycles takes the APU that the reset sequence leaves to that of the reset state (R440). -/
theorem ticks_afterReset : Apu.ticks Config.resetCycles Apu.afterReset = State.reset.apu := by decide

/-- The reset sequence and its batch of seven cycles, as one update of the state (R440, R120). -/
theorem resetStep_touches (s : State) : ∃ es, resetStep s =
    { s with
      a := 0x00, x := 0x00, y := 0x00, sp := 0xFD, p := 0x24, pc := word (s.memByte 0xFFFD) (s.memByte 0xFFFC)
      cyc := 7, halted := false, fault := none, dmaStall := 0, stepCycles := 7, nmiPrev := false
      ppu := { Ppu.afterReset s.ppu.vram s.ppu.palette s.ppu.oam with cycle := 21 }
      apu := State.reset.apu, resetReq := false, events := es } := by
  rw [← dots_afterReset, ← ticks_afterReset, resetStep, resetSequence_eq]
  exact ⟨_, tickBatch_eq _ _⟩

/-- The reset state has the invariant (R440, R441). -/
theorem reset_inv : State.reset.Inv where
  memories := by constructor <;> decide
  status := ⟨rfl, rfl⟩
  timer := ⟨by decide, by decide⟩
  frameCounter := ⟨by decide, by decide⟩
  stall := .inl rfl

@[simp] theorem sampleStop_memByte (s : State) (a : Word) : (sampleStop s).memByte a = s.memByte a := by
  obtain ⟨b, c, h⟩ := sampleStop_touches s
  rw [h]
  rfl

/-! ## What leaves the processor alone -/

/-- A bus read changes no register, no flag and no cost (R23). -/
@[simp] theorem busRead_cpu (a : Word) (s : State) : (busRead a s).2.cpu = s.cpu := by
  obtain ⟨u, v, n, es, h⟩ := busRead_touches a s
  rw [h]; rfl

@[simp] theorem busWrite_cpu (a : Word) (v : Byte) (s : State) : (busWrite a v s).cpu = s.cpu := by
  obtain ⟨m, u, w, d, n, es, h⟩ := busWrite_touches a v s
  rw [h]; rfl

@[simp] theorem oamDma_cpu (v : Byte) (s : State) : (oamDma v s).cpu = s.cpu := by
  obtain ⟨u, w, n, es, h⟩ := oamDmaCopy_touches v 256 s
  rw [oamDma, h]; rfl

@[simp] theorem tickBatch_cpu (n : Nat) (s : State) : (tickBatch n s).cpu = s.cpu := by
  rw [tickBatch_eq]; rfl

/-! ## The general registers -/

/-- The registers are a matter of the processor alone. -/
theorem reg_of_cpu {s t : State} (h : t.cpu = s.cpu) (r : Reg) : t.reg r = s.reg r := by
  cases r
  · exact congrArg Cpu.a h
  · exact congrArg Cpu.x h
  · exact congrArg Cpu.y h
  · exact congrArg Cpu.sp h

@[simp] theorem setP_reg (s : State) (v : Byte) (r : Reg) : (s.setP v).reg r = s.reg r := by cases r <;> rfl
@[simp] theorem setPC_reg (s : State) (v : Word) (r : Reg) : (s.setPC v).reg r = s.reg r := by cases r <;> rfl
@[simp] theorem setStepCycles_reg (s : State) (n : Nat) (r : Reg) : (s.setStepCycles n).reg r = s.reg r := by cases r <;> rfl
@[simp] theorem setHalted_reg (s : State) (b : Bool) (r : Reg) : (s.setHalted b).reg r = s.reg r := by cases r <;> rfl
@[simp] theorem endAt_reg (w : State) (len cycles : Nat) (r : Reg) : (endAt w len cycles).reg r = w.reg r := by
  cases r <;> rfl

@[simp] theorem busWrite_reg (a : Word) (v : Byte) (s : State) (r : Reg) : (busWrite a v s).reg r = s.reg r :=
  reg_of_cpu (busWrite_cpu a v s) r

@[simp] theorem tickBatch_reg (n : Nat) (s : State) (r : Reg) : (tickBatch n s).reg r = s.reg r :=
  reg_of_cpu (tickBatch_cpu n s) r

@[simp] theorem operandOf_reg (i : Instr) (s : State) (r : Reg) : (operandOf i s).2.reg r = s.reg r := by
  obtain ⟨u, v, n, es, h⟩ := operandOf_touches i s
  rw [h]; cases r <;> rfl

@[simp] theorem sourceOf_reg (i : Instr) (s : State) (r : Reg) : (sourceOf i s).2.reg r = s.reg r := by
  obtain ⟨u, v, n, es, h⟩ := sourceOf_touches i s
  rw [h]; cases r <;> rfl

/-- Only the shifts and rotates have accumulator mode (R135). -/
theorem mnemonic_of_accumulator (i : Instr) (h : i.mode = .accumulator) : i.mnemonic ∈ [.asl, .lsr, .rol, .ror] := by
  revert h
  cases i <;> simp [Instr.mode, Instr.mnemonic]

/-! ## Each shape writes the registers of its row (R22) -/

section
variable {i : Instr} {s w : State}

theorem ReadEffect.reg {effect : Byte → State → State} (h : ReadEffect i.mnemonic effect) (brk : BrkMode) (r : Reg)
    (m : Byte) (s : State) : (effect m s).reg r = s.reg r ∨ writesReg i brk r := by
  generalize hm : i.mnemonic = n at h
  cases h <;> cases r <;> simp [State.reg, writesReg, hm]

theorem Implied.reg (h : Implied s i.mnemonic w) (brk : BrkMode) (r : Reg) : w.reg r = s.reg r ∨ writesReg i brk r := by
  generalize hm : i.mnemonic = n at h
  cases h <;> cases r <;> simp [State.reg, writesReg, hm, push_eq, pop_eq]

theorem Jump.reg (h : Jump i s i.mnemonic w) (brk : BrkMode) (r : Reg) : w.reg r = s.reg r ∨ writesReg i brk r := by
  generalize hm : i.mnemonic = n at h
  cases h <;> cases r <;> simp [State.reg, writesReg, hm, push16_eq, pop16_eq, returnFromInterrupt_eq]

end

theorem setAP_reg (v : Byte × Byte) (s : State) (r : Reg) : (setAP v s).reg r = s.reg r ∨ r = .a := by
  cases r <;> simp [State.reg, setAP]

theorem enterHandler_irq_reg (ret : Word) (status : Byte) (s : State) (r : Reg) :
    (enterHandler ret status Config.vecIrq s).reg r = s.reg r ∨ r = .sp := by
  rw [enterHandler_eq ret status _ s rfl rfl]
  cases r <;> simp [State.reg]

/-- A register after an instruction is as before, or the instruction's row writes it (R22). -/
theorem exec_reg {i : Instr} {s t : State} (h : exec i s = .next t) (r : Reg) :
    t.reg r = s.reg r ∨ writesReg i s.params.brkMode r := by
  cases exec_shape h with
  | read effect h e => simpa [e] using h.reg _ r _ (sourceOf i s).2
  | store v h e => simp [e]
  | modify op h hm e => simp [e]
  | modifyA op h hm e =>
    rw [e, endAt_reg]
    rcases setAP_reg (op s.a s.p) s r with hr | rfl
    · exact .inl hr
    · exact .inr (.inr ⟨mnemonic_of_accumulator i hm, hm⟩)
  | implied w h e => simpa [e] using h.reg _ r
  | jump w h e => simpa [e] using h.reg _ r
  | halt h hb e => simp [e]
  | software h hb e =>
    rw [e, setStepCycles_reg]
    rcases enterHandler_irq_reg (s.pc + 2) (pushedByInstruction s.p) s r with hr | rfl
    · exact .inl hr
    · exact .inr (.inr ⟨congrArg Instr.mnemonic h, hb⟩)
  | branch h pc cycles hc e => simp [e]

/-! ## Each shape writes the flags of its row (R27, R28) -/

section
variable {i : Instr} {s w : State}

theorem ReadEffect.flag {effect : Byte → State → State} (h : ReadEffect i.mnemonic effect) (brk : BrkMode) (f : Flag)
    (m : Byte) (s : State) : getFlag (effect m s).p f = getFlag s.p f ∨ writesFlag i brk f := by
  generalize hm : i.mnemonic = n at h
  cases h <;> cases f <;>
    simp [writesFlag, hm, loadA, loadX, loadY, addA, subA, andA, orA, eorA, compareA, compareX, compareY, testA, setAP, adcOp,
      sbcOp, compareOp, bitOp]

theorem ModifyOp.flag {op : Byte → Byte → Byte × Byte} (h : ModifyOp i.mnemonic op) (brk : BrkMode) (f : Flag) (m p : Byte) :
    getFlag (op m p).2 f = getFlag p f ∨ writesFlag i brk f := by
  generalize hm : i.mnemonic = n at h
  cases h <;> cases f <;> simp [writesFlag, hm, incOp, decOp, aslOp, lsrOp, rolOp, rorOp]

theorem Implied.flag (h : Implied s i.mnemonic w) (brk : BrkMode) (f : Flag) :
    getFlag w.p f = getFlag s.p f ∨ writesFlag i brk f := by
  generalize hm : i.mnemonic = n at h
  cases h <;> cases f <;> simp [writesFlag, hm, push_eq, pop_eq, loadA, loadX, loadY]

theorem Jump.flag (h : Jump i s i.mnemonic w) (brk : BrkMode) (f : Flag) :
    getFlag w.p f = getFlag s.p f ∨ writesFlag i brk f := by
  generalize hm : i.mnemonic = n at h
  cases h <;> cases f <;> simp [writesFlag, hm, push16_eq, pop16_eq]

end

/-- Entering a handler sets `I` and writes no other flag (R407). -/
theorem enterHandler_irq_p (ret : Word) (status : Byte) (s : State) :
    (enterHandler ret status Config.vecIrq s).p = setFlag s.p .i true := by
  rw [enterHandler_eq ret status _ s rfl rfl]

/-- A flag after an instruction is as before, or the instruction's row writes it (R27, R28). -/
theorem exec_flag {i : Instr} {s t : State} (h : exec i s = .next t) (f : Flag) :
    getFlag t.p f = getFlag s.p f ∨ writesFlag i s.params.brkMode f := by
  cases exec_shape h with
  | read effect h e => simpa [e] using h.flag _ f _ (sourceOf i s).2
  | store v h e => simp [e]
  | modify op h hm e => simpa [e] using h.flag _ f _ s.p
  | modifyA op h hm e => simpa [e, setAP] using h.flag _ f s.a s.p
  | implied w h e => simpa [e] using h.flag _ f
  | jump w h e => simpa [e] using h.flag _ f
  | halt h hb e => simp [e]
  | software h hb e =>
    rw [e, State.setStepCycles_p, enterHandler_irq_p]
    cases f <;> simp [writesFlag, h, hb, Instr.mnemonic]
  | branch h pc cycles hc e => simp [e]

/-! ## What every step keeps (R28, R31, R42, R53) -/

theorem State.MemoriesOk.of_eq {s t : State} (m : s.MemoriesOk) (hr : t.ram = s.ram) (hv : t.ppu.vram = s.ppu.vram)
    (hp : t.ppu.palette = s.ppu.palette) (ho : t.ppu.oam = s.ppu.oam) (hq : t.params = s.params) : t.MemoriesOk :=
  ⟨hr ▸ m.ram, hv ▸ m.vram, hp ▸ m.palette, ho ▸ m.oam, hq ▸ m.prg, hq ▸ m.chr⟩

/-- Bus accesses keep all of the invariant but the status and the stall. -/
theorem State.Inv.of_untimed {s t : State} (h : s.Inv) (hu : Untimed s t) (hs : t.StatusOk)
    (hd : t.dmaStall = 0 ∨ t.dmaStall = 513 ∨ t.dmaStall = 514) : t.Inv where
  memories := hu.memories h.memories
  status := hs
  timer := ⟨hu.scanline ▸ h.timer.1, hu.cycle ▸ h.timer.2⟩
  frameCounter := hu.frameCounter h.frameCounter
  stall := hd

theorem State.Inv.tickBatch {s : State} (h : s.Inv) (n : Nat) : (tickBatch n s).Inv where
  memories := h.memories.of_eq (by simp) (by simp) (by simp) (by simp) (by simp)
  status := by simpa [State.StatusOk] using h.status
  timer := by rw [tickBatch_ppu]; exact Ppu.dots_timerOk _ _ h.timer
  frameCounter := by rw [tickBatch_apu]; exact Apu.ticks_inRange _ _ h.frameCounter
  stall := by simpa using h.stall

/-- Fields of which the invariant does not speak. -/
theorem State.Inv.of_eq {s : State} (h : s.Inv) (b c : Bool) (f : Option InvalidOpcode) (es : List Event) :
    { s with halted := b, stopReq := c, fault := f, events := es }.Inv :=
  ⟨h.memories.of_eq rfl rfl rfl rfl rfl, h.status, h.timer, h.frameCounter, h.stall⟩

theorem State.Inv.sampleStop {s : State} (h : s.Inv) : (sampleStop s).Inv := by
  obtain ⟨b, c, e⟩ := sampleStop_touches s
  rw [e]; exact h.of_eq b c s.fault s.events

theorem State.Inv.afterInstruction {s : State} (h : s.Inv) : (afterInstruction s).Inv := by
  rcases afterInstruction_touches s with ⟨-, es, e⟩ | ⟨-, es, e⟩ <;> rw [e]
  · exact h.of_eq s.halted s.stopReq s.fault es
  · exact (h.tickBatch s.stepCycles).of_eq _ _ _ es

/-- A step starts with no stall (R116). -/
theorem State.Inv.beginStep {s : State} (h : s.Inv) : (beginStep s).Inv :=
  h.of_untimed (.of_eq rfl rfl rfl rfl rfl rfl rfl rfl rfl) h.status (.inl rfl)

theorem State.Inv.setStepCycles {s : State} (h : s.Inv) (n : Nat) : (s.setStepCycles n).Inv :=
  h.of_untimed (.setStepCycles s n) h.status h.stall

theorem State.Inv.beginInstruction {s : State} (h : s.Inv) : (beginInstruction s).Inv := h.beginStep.setStepCycles 0

theorem State.Inv.interruptStep {s : State} (h : s.Inv) (k : Interrupt) : (interruptStep k s).Inv := by
  have entry : (interruptEntry k (Machine.beginStep s)).Inv := by
    refine h.beginStep.of_untimed (.interruptEntry k _) ?_ ?_ <;> rw [interruptEntry_eq]
    · simpa [State.StatusOk] using h.beginStep.status
    · exact h.beginStep.stall
  exact (entry.setStepCycles _).tickBatch _

theorem State.Inv.fetch {s : State} {f : Fetched} (h : s.Inv) (hf : Machine.fetch (Machine.beginInstruction s) = f) :
    f.state.Inv := by
  obtain ⟨u, v, k, es, e⟩ := fetch_touches (Machine.beginInstruction s)
  rw [← hf]
  refine h.beginInstruction.of_untimed (.fetch _) ?_ ?_ <;> rw [e]
  · exact h.beginInstruction.status
  · exact h.beginInstruction.stall

/-! ## Every instruction keeps the invariant -/

/-- PLP and RTI load the status (R253, R225). -/
theorem exec_loads_status {i : Instr} {s t : State} (h : exec i s = .next t) (hm : i.mnemonic ∈ [.plp, .rti]) :
    ∃ m, t.p = loadedStatus m := by
  rw [exec_eq] at h
  rcases List.mem_pair.1 hm with hm | hm <;> simp only [execByMnemonic, hm] at h
  · exact ⟨(pop s).1, by rw [advance_shape h, endAt_p, State.setP_p]⟩
  · exact ⟨_, by rw [complete_shape h, State.setStepCycles_p, returnFromInterrupt_eq]⟩

/-- An instruction keeps U and B, or loads the status with U set and B clear (R28). -/
theorem exec_statusOk {i : Instr} {s t : State} (h : exec i s = .next t) (hs : s.StatusOk) : t.StatusOk := by
  obtain ⟨hu, hb⟩ := hs
  by_cases hm : i.mnemonic ∈ [.plp, .rti]
  · obtain ⟨m, hp⟩ := exec_loads_status h hm
    simp [State.StatusOk, hp]
  · exact ⟨((exec_flag h .u).resolve_right hm).trans hu, ((exec_flag h .b).resolve_right hm).trans hb⟩

theorem ReadEffect.dmaStall {n : Mnemonic} {effect : Byte → State → State} (h : ReadEffect n effect) (m : Byte) (s : State) :
    (effect m s).dmaStall = s.dmaStall := by
  cases h <;> rfl

theorem Implied.dmaStall {n : Mnemonic} {s w : State} (h : Implied s n w) : w.dmaStall = s.dmaStall := by
  cases h <;> simp [push_eq, pop_eq]

theorem Jump.dmaStall {i : Instr} {n : Mnemonic} {s w : State} (h : Jump i s n w) : w.dmaStall = s.dmaStall := by
  cases h <;> simp [push16_eq, pop16_eq, returnFromInterrupt_eq]

/-- Only the write of a store or a read-modify-write can set the stall (R116). -/
theorem exec_dmaStall_range {i : Instr} {s t : State} (h : exec i s = .next t)
    (hs : s.dmaStall = 0 ∨ s.dmaStall = 513 ∨ s.dmaStall = 514) :
    t.dmaStall = 0 ∨ t.dmaStall = 513 ∨ t.dmaStall = 514 := by
  cases exec_shape h with
  | read effect h e => simpa [e, h.dmaStall] using hs
  | store v h e => rw [e]; exact busWrite_dmaStall_range _ _ _ (by simpa using hs)
  | modify op h hm e => rw [e]; exact busWrite_dmaStall_range _ _ _ (by simpa using hs)
  | modifyA op h hm e => rw [e]; exact hs
  | implied w h e => simpa [e, h.dmaStall] using hs
  | jump w h e => simpa [e, h.dmaStall] using hs
  | halt h hb e => rw [e]; exact hs
  | software h hb e => simpa [e] using hs
  | branch h pc cycles hc e => rw [e]; exact hs

theorem State.Inv.exec {i : Instr} {s t : State} (h : s.Inv) (hx : exec i s = .next t) : t.Inv :=
  h.of_untimed (.exec hx) (exec_statusOk hx h.status) (exec_dmaStall_range hx h.stall)

theorem State.Inv.resetStep {s : State} (h : s.Inv) : (resetStep s).Inv := by
  obtain ⟨es, e⟩ := resetStep_touches s
  rw [e]
  exact ⟨h.memories.of_eq rfl rfl rfl rfl rfl, reset_inv.status, reset_inv.timer, reset_inv.frameCounter, reset_inv.stall⟩

/-! ## Which steps change a register (R23) -/

@[simp] theorem sampleStop_reg (s : State) (r : Reg) : (sampleStop s).reg r = s.reg r := by
  obtain ⟨b, c, h⟩ := sampleStop_touches s
  rw [h]; cases r <;> rfl

@[simp] theorem setFault_reg (s : State) (f : Option InvalidOpcode) (r : Reg) : (s.setFault f).reg r = s.reg r := by
  cases r <;> rfl

/-- A fetch changes no register. -/
theorem fetch_reg {s : State} {f : Fetched} (h : fetch (beginInstruction s) = f) (r : Reg) : f.state.reg r = s.reg r := by
  obtain ⟨u, v, k, es, e⟩ := fetch_touches (beginInstruction s)
  rw [← h, e]; cases r <;> rfl

@[simp] theorem afterInstruction_reg (s : State) (r : Reg) : (afterInstruction s).reg r = s.reg r := by
  rcases afterInstruction_touches s with ⟨-, es, e⟩ | ⟨-, es, e⟩ <;> rw [e]
  · cases r <;> rfl
  · rw [← tickBatch_reg s.stepCycles s r]; cases r <;> rfl

/-- An interrupt entry writes the stack pointer and no other general register (R415). -/
theorem interruptStep_reg (k : Interrupt) (s : State) (r : Reg) : (interruptStep k s).reg r = s.reg r ∨ r = .sp := by
  rw [interruptStep, tickBatch_reg, setStepCycles_reg, interruptEntry_eq]
  cases r <;> simp [State.reg, beginStep]

/-! ## The bus does not see the status -/

@[simp] theorem setP_setP (s : State) (p q : Byte) : (s.setP p).setP q = s.setP q := rfl
@[simp] theorem setP_setA (s : State) (p v : Byte) : (s.setP p).setA v = (s.setA v).setP p := rfl
@[simp] theorem setP_setX (s : State) (p v : Byte) : (s.setP p).setX v = (s.setX v).setP p := rfl
@[simp] theorem setP_setY (s : State) (p v : Byte) : (s.setP p).setY v = (s.setY v).setP p := rfl
@[simp] theorem setP_setSP (s : State) (p v : Byte) : (s.setP p).setSP v = (s.setSP v).setP p := rfl
@[simp] theorem setP_setPC (s : State) (p : Byte) (v : Word) : (s.setP p).setPC v = (s.setPC v).setP p := rfl
@[simp] theorem setP_setRam (s : State) (p : Byte) (m : Memory) : (s.setP p).setRam m = (s.setRam m).setP p := rfl

@[simp] theorem busRead_setP (a : Word) (s : State) (p : Byte) :
    busRead a (s.setP p) = ((busRead a s).1, (busRead a s).2.setP p) := by
  unfold busRead
  split
  case h_2 => unfold ppuRegRead; split <;> rfl
  all_goals rfl

theorem oamDmaCopy_setP (page : Byte) (n : Nat) (s : State) (p : Byte) :
    oamDmaCopy page n (s.setP p) = (oamDmaCopy page n s).setP p := by
  induction n with
  | zero => rfl
  | succ n ih => rw [oamDmaCopy, oamDmaCopy, ih, oamDmaByte, busRead_setP]; rfl

@[simp] theorem busWrite_setP (a : Word) (v : Byte) (s : State) (p : Byte) :
    busWrite a v (s.setP p) = (busWrite a v s).setP p := by
  unfold busWrite
  split
  case h_2 =>
    unfold ppuRegWrite
    split
    case h_8 => unfold chrWriteDiag; rw [State.setP_ppu]; split <;> rfl
    all_goals rfl
  case h_4 => rw [oamDma, oamDma, oamDmaCopy_setP]; rfl
  all_goals rfl

@[simp] theorem operandOf_setP (i : Instr) (s : State) (p : Byte) :
    operandOf i (s.setP p) = ((operandOf i s).1, (operandOf i s).2.setP p) := by
  unfold operandOf
  split
  case h_7 => simp [indirectX, readZP16_eq]
  case h_8 => simp [indirectY, readZP16_eq]
  case h_9 => simp [indirect, readBug16]
  all_goals rfl

@[simp] theorem eaOf_setP (i : Instr) (s : State) (p : Byte) : eaOf i (s.setP p) = eaOf i s := by simp [eaOf]

@[simp] theorem sourceOf_setP (i : Instr) (s : State) (p : Byte) :
    sourceOf i (s.setP p) = ((sourceOf i s).1, (sourceOf i s).2.setP p) := by
  unfold sourceOf
  split <;> simp

/-! ## Toggling the decimal flag -/

/-- The state with `D` toggled. -/
def State.toggleD (s : State) : State := s.setP (s.p ^^^ 8#8)

@[simp] theorem getFlag_xor_d (p : Byte) (f : Flag) : getFlag (p ^^^ 8#8) f = (getFlag p f ^^ decide (f = .d)) := by
  cases f <;> simp [getFlag]

/-- Writing another flag and toggling `D` commute. -/
@[simp] theorem setFlag_xor_d (p : Byte) {f : Flag} (v : Bool) (hf : f ≠ .d) :
    setFlag (p ^^^ 8#8) f v = setFlag p f v ^^^ 8#8 := by
  refine status_ext _ _ fun g => ?_
  by_cases hg : g = f <;> simp [hg, hf]

@[simp] theorem setZN_xor_d (v p : Byte) : setZN v (p ^^^ 8#8) = setZN v p ^^^ 8#8 := by simp [setZN]

@[simp] theorem adcOp_xor_d (a m p : Byte) : adcOp a m (p ^^^ 8#8) = ((adcOp a m p).1, (adcOp a m p).2 ^^^ 8#8) := by
  simp [adcOp]

@[simp] theorem compareOp_xor_d (r m p : Byte) : compareOp r m (p ^^^ 8#8) = compareOp r m p ^^^ 8#8 := by
  simp only [compareOp, ne_eq, reduceCtorEq, not_false_eq_true, setFlag_xor_d]

@[simp] theorem bitOp_xor_d (a m p : Byte) : bitOp a m (p ^^^ 8#8) = bitOp a m p ^^^ 8#8 := by simp [bitOp]

section
variable {n : Mnemonic}

theorem ReadEffect.toggleD {effect : Byte → State → State} (h : ReadEffect n effect) (m : Byte) (s : State) :
    effect m s.toggleD = (effect m s).toggleD := by
  cases h <;>
    simp [State.toggleD, loadA, loadX, loadY, addA, subA, andA, orA, eorA, compareA, compareX, compareY, testA, setAP, sbcOp]

theorem ModifyOp.xor_d {op : Byte → Byte → Byte × Byte} (h : ModifyOp n op) (m p : Byte) :
    op m (p ^^^ 8#8) = ((op m p).1, (op m p).2 ^^^ 8#8) := by
  cases h <;> simp [incOp, decOp, aslOp, lsrOp, rolOp, rorOp]

end

/-! ## An instruction in a state with the decimal flag toggled (R29) -/

/-- Where `r` is a next state, `r'` is that state with `D` toggled. -/
def TogglesD (r r' : Result) : Prop := ∀ t, r = .next t → r' = .next t.toggleD

/-- An answer that completes from a state with `D` toggled. -/
theorem TogglesD.complete {w w' : State} (h : w' = w.toggleD) (cycles : Nat) :
    TogglesD (complete cycles w) (complete cycles w') := by
  intro t ht
  rw [complete_next_iff] at ht ⊢
  rw [h, ht]; rfl

theorem TogglesD.advance {w w' : State} (h : w' = w.toggleD) (len cycles : Nat) :
    TogglesD (advance len cycles w) (advance len cycles w') :=
  .complete (by rw [h]; rfl) cycles

theorem TogglesD.readBy {n : Mnemonic} {effect : Byte → State → State} (h : ReadEffect n effect) (i : Instr) (s : State) :
    TogglesD (readBy i s effect) (readBy i s.toggleD effect) := by
  have hs : sourceOf i s.toggleD = ((sourceOf i s).1, (sourceOf i s).2.toggleD) := by simp [State.toggleD]
  have hp : penaltyOf i s.toggleD = penaltyOf i s := by simp [penaltyOf, State.toggleD]
  rw [Machine.readBy, Machine.readBy, hs, hp]
  exact .advance (h.toggleD _ _) _ _

theorem TogglesD.storeBy (i : Instr) (s : State) (v : Byte) : TogglesD (storeBy i s v) (storeBy i s.toggleD v) :=
  .advance (by simp [State.toggleD]) _ _

theorem TogglesD.modifyBy {n : Mnemonic} {op : Byte → Byte → Byte × Byte} (h : ModifyOp n op) (i : Instr) (s : State) :
    TogglesD (modifyBy i s op) (modifyBy i s.toggleD op) := by
  unfold Machine.modifyBy
  split
  · exact .advance (by simp [State.toggleD, setAP, h.xor_d]) _ _
  · exact .advance (by simp [State.toggleD, h.xor_d]) _ _

theorem TogglesD.branch {c c' : Bool} (hc : c' = c) (off : Byte) (s : State) :
    TogglesD (branch c off s) (branch c' off s.toggleD) := by
  subst hc
  unfold Machine.branch
  cases c' <;> exact .complete rfl _

/-- Toggling `D` before an instruction that neither writes it nor pushes the status is toggling it after (R29). -/
theorem TogglesD.exec (i : Instr) (s : State) (hi : i.mnemonic ∉ [.php, .brk, .plp, .rti, .cld, .sed]) :
    TogglesD (Machine.exec i s) (Machine.exec i s.toggleD) := by
  rw [exec_eq, exec_eq]
  unfold execByMnemonic
  cases hm : i.mnemonic <;> dsimp only
  case php | brk | plp | rti | cld | sed => simp [hm] at hi
  case lda | ldx | ldy | adc | sbc | and | ora | eor | cmp | cpx | cpy | bit => exact .readBy (by constructor) i s
  case sta | stx | sty => exact .storeBy i s _
  case inc | dec | asl | lsr | rol | ror => exact .modifyBy (by constructor) i s
  case bcc | bcs | beq | bne | bmi | bpl | bvc | bvs => exact .branch (by simp [State.toggleD]) _ s
  case jmp | jsr | rts => exact .complete (by simp [State.toggleD, push16_eq, pop16_eq]) _
  case tax | tay | txa | tya | tsx | txs | inx | iny | dex | dey | nop | pha | pla | clc | sec | cli | sei | clv =>
    exact .advance (by simp [State.toggleD, push_eq, pop_eq, loadA, loadX, loadY]) _ _

/-! ## The statements -/

/-- Settles O13, by the kinds of step: each is made of operations that keep the invariant. -/
theorem stepKeepsTheInvariant : Obligations.StepKeepsTheInvariant := by
  intro s t h hstep
  rcases step_cases hstep with
    ⟨-, ht⟩ | ⟨-, -, ht⟩ | ⟨-, -, -, -, ⟨k, -, ht⟩ | ⟨-, op, u, hf, ht⟩ | ⟨-, i, u, v, hf, hx, ht⟩⟩ <;>
    rw [ht]
  · exact h.sampleStop.resetStep
  · exact h.sampleStop
  · exact h.interruptStep k
  · have hu : u.Inv := h.fetch hf
    exact hu.of_eq u.halted u.stopReq (some ⟨op, s.pc⟩) u.events
  · have hu : u.Inv := h.fetch hf
    exact (hu.exec hx).afterInstruction

/-- Settles O11: the reset step is one update of the state, whatever the state and its stop request. -/
theorem resetStep_from_any_state : Obligations.ResetStep := by
  intro s hr
  obtain ⟨es, h⟩ := resetStep_touches (sampleStop s)
  refine ⟨_, step_of_resetReq hr, ?_⟩
  obtain ⟨b, c, hs⟩ := sampleStop_touches s
  rw [h, sampleStop_memByte, sampleStop_memByte, hs]
  exact ⟨by simp [State.cpu], rfl, rfl, rfl, rfl⟩

/-- Settles O36: over the nine shapes of an instruction. -/
theorem registersWrittenOnlyAsListed : Obligations.RegistersWrittenOnlyAsListed :=
  fun _ _ _ r h hr => (exec_reg h r).resolve_right hr

/-- Settles O37: over the nine shapes of an instruction. -/
theorem flagsWrittenOnlyAsListed : Obligations.FlagsWrittenOnlyAsListed :=
  fun _ _ _ f h hf => (exec_flag h f).resolve_right hf

/-- Settles O39: every operation of the instruction commutes with toggling `D`. -/
theorem decimalFlagIsInert : Obligations.DecimalFlagIsInert := fun i s t hi h => TogglesD.exec i s hi t h

/-- Settles O40, by the kinds of step: beside instructions and interrupt entries, none writes a register. -/
theorem onlyInstructionsChangeRegisters : Obligations.OnlyInstructionsChangeRegisters := by
  refine ⟨fun s t r h hreset hne => ?_, fun s a v n =>
    ⟨busRead_cpu a s, busWrite_cpu a v s, oamDma_cpu v s, tickBatch_cpu n s⟩⟩
  rcases step_cases h with
    ⟨hr, -⟩ | ⟨-, -, rfl⟩ | ⟨-, -, -, -, ⟨k, ha, rfl⟩ | ⟨-, op, u, hf, rfl⟩ | ⟨ha, i, u, v, hf, hx, rfl⟩⟩
  · simp [hr] at hreset
  · simp at hne
  · exact .inr ⟨(interruptStep_reg k s r).resolve_left hne, by simp [ha]⟩
  · exact absurd ((setFault_reg u _ r).trans (fetch_reg hf r)) hne
  · have hw : writesReg i u.params.brkMode r := (exec_reg hx r).resolve_left fun heq =>
      hne ((afterInstruction_reg v r).trans (heq.trans (fetch_reg hf r)))
    rw [show u.params = s.params from fetch_params hf] at hw
    exact .inl ⟨i, u, ha, hf, hw⟩

/-- Settles O12: the values of R440 meet each part of the invariant. -/
theorem invHoldsAtReset : Obligations.InvHoldsAtReset := reset_inv

end Sys2Proof.Machine
end

section
/-! SUPPORT. The statements of the memory (O38, O41 to O45): what a bus access does in each window, what a read can leave, OAM DMA,
and where an instruction stores. -/

namespace Sys2Proof.Machine

/-! ## Accesses to RAM and program ROM -/

theorem ram_of_lt {a : Word} (h : a.toNat < 0x2000) : windowOf a = .ram := (windowOf_ram_iff a).2 (Nat.le_of_lt_succ h)

/-- A read of any image of the RAM gives the byte of the address modulo 2048 and does nothing else (R91). -/
theorem busRead_ramWindow {a : Word} (h : a.toNat < 0x2000) (s : State) :
    busRead a s = (s.ram.read (a.toNat % 0x800), s) := by
  rw [busRead_memory a s (.inl (ram_of_lt h)), memByte_ram s a (ram_of_lt h), ramIndex_eq]

/-- A write through any image stores at the address modulo 2048 and does nothing else (R91). -/
theorem busWrite_ramWindow {a : Word} (h : a.toNat < 0x2000) (v : Byte) (s : State) :
    busWrite a v s = s.setRam (s.ram.write (a.toNat % 0x800) v) := by
  rw [busWrite_ram a v s (ram_of_lt h), ramIndex_eq]

/-- A read of program ROM gives the byte at the address's index and does nothing else (R102). -/
theorem busRead_prgWindow {a : Word} (h : 0x8000 ≤ a.toNat) (s : State) :
    busRead a s = (s.params.prg.read (prgIndex s.params.prgSize a), s) := by
  rw [busRead_memory a s (.inr ((windowOf_prg_iff a).2 h)), memByte_prg s a ((windowOf_prg_iff a).2 h)]

/-- In a ROM of two banks the index is the offset in the window (R102). -/
theorem prgIndex_k32 (a : Word) : prgIndex .k32 a = a.toNat - 0x8000 :=
  Nat.mod_eq_of_lt (by have := a.isLt; simp only [Config.prgBytes]; omega)

/-- A single bank is seen in both halves of the window (R102). -/
theorem prgIndex_k16_sub {a : Word} (h : 0xC000 ≤ a.toNat) : prgIndex .k16 (a - 0x4000) = prgIndex .k16 a := by
  have ha : (a - 0x4000).toNat = a.toNat - 0x4000 := BitVec.toNat_sub_of_le (by bv_omega)
  simp only [prgIndex, Config.prgBytes, ha]
  omega

/-! ## Accesses to the PPU registers -/

/-- The register that an address selects is the address modulo 8 (R92). -/
theorem setWidth_three_eq (a : Word) : a.setWidth 3 = BitVec.ofNat 3 (a.toNat % 8) := BitVec.eq_of_toNat_eq (by simp)

section
variable {a : Word} (lo : 0x2000 ≤ a.toNat) (hi : a.toNat ≤ 0x3FFF)
include lo hi

/-- A read of the PPU window is a read of the register at the address modulo 8 (R92). -/
theorem busRead_ppu (s : State) : busRead a s = ppuRegRead (BitVec.ofNat 3 (a.toNat % 8)) s := by
  simp only [← setWidth_three_eq, busRead, (windowOf_ppu_iff a).2 ⟨lo, hi⟩]

/-- A write to the PPU window is a write to the register at the address modulo 8 (R92). -/
theorem busWrite_ppu (v : Byte) (s : State) : busWrite a v s = ppuRegWrite (BitVec.ofNat 3 (a.toNat % 8)) v s := by
  simp only [← setWidth_three_eq, busWrite, (windowOf_ppu_iff a).2 ⟨lo, hi⟩]

theorem busRead_ppuStatus (h : a.toNat % 8 = 2) (s : State) :
    busRead a s = (s.ppu.statusByte, s.setPpu s.ppu.statusRead.2) := by
  rw [busRead_ppu lo hi, h]; rfl

theorem busRead_oamData (h : a.toNat % 8 = 4) (s : State) : busRead a s = (s.ppu.oamDataRead, s) := by
  rw [busRead_ppu lo hi, h]; rfl

theorem busRead_ppuData (h : a.toNat % 8 = 7) (s : State) :
    busRead a s = ((s.ppu.dataRead s.params).1, s.setPpu (s.ppu.dataRead s.params).2) := by
  rw [busRead_ppu lo hi, h]; rfl

/-- The write-only registers read as the placeholder, with a diagnostic (R95, R272). -/
theorem busRead_ppuWriteOnly (h : a.toNat % 8 ∈ [0, 1, 3, 5, 6]) (s : State) :
    busRead a s = (0x00, s.emit (.diag .illegalRead (BitVec.ofNat 16 (0x2000 + a.toNat % 8)) 0x00)) := by
  rw [busRead_ppu lo hi]
  generalize a.toNat % 8 = offset at h
  fin_cases h <;> rfl

end

/-! ## Accesses from `0x4000` to `0x7FFF` -/

/-- The write-only registers of the APU, and the DMA register, read as the placeholder, with a diagnostic (R95). -/
theorem busRead_apuWriteOnly {a : Word} (lo : 0x4000 ≤ a.toNat) (hi : a.toNat ≤ 0x4014) (s : State) :
    busRead a s = (0x00, s.emit (.diag .illegalRead a 0x00)) := by
  rcases (by omega : a.toNat ≤ 0x4013 ∨ a.toNat = 0x4014) with h | h
  · simp only [busRead, (windowOf_apuRegs_iff a).2 ⟨lo, h⟩]; rfl
  · obtain rfl : a = 0x4014 := BitVec.eq_of_toNat_eq h
    rfl

theorem busRead_apuStatus {a : Word} (h : a.toNat = 0x4015) (s : State) :
    busRead a s = (s.apu.statusByte, s.setApu s.apu.statusRead.2) := by
  obtain rfl : a = 0x4015 := BitVec.eq_of_toNat_eq h
  rfl

theorem busRead_joypad {a : Word} (h : a.toNat = 0x4016) (s : State) :
    busRead a s =
      (Config.joypadByte s.joypadReads, (s.setJoypadReads (s.joypadReads + 1)).emit (.joypadRead s.joypadReads)) := by
  obtain rfl : a = 0x4016 := BitVec.eq_of_toNat_eq h
  rfl

theorem busRead_frameCounter {a : Word} (h : a.toNat = 0x4017) (s : State) : busRead a s = (0x00, s) := by
  obtain rfl : a = 0x4017 := BitVec.eq_of_toNat_eq h
  rfl

theorem windowOf_unmapped {a : Word} (lo : 0x4018 ≤ a.toNat) (hi : a.toNat ≤ 0x7FFF) : windowOf a = .unmapped :=
  (windowOf_unmapped_iff a).2 ⟨lo, Nat.lt_succ_of_le hi⟩

theorem busRead_unmapped {a : Word} (lo : 0x4018 ≤ a.toNat) (hi : a.toNat ≤ 0x7FFF) (s : State) :
    busRead a s = (0x00, s.emit (.diag .unmappedAccess a 0x00)) := by
  simp only [busRead, windowOf_unmapped lo hi]

/-! ## What a read can do -/

/-- The addresses whose read has no side effect (R85): memory, the OAM data port, `0x4017`. -/
def QuietRead (a : Word) : Prop :=
  HoldsByte a ∨ a.toNat = 0x4017 ∨ (0x2000 ≤ a.toNat ∧ a.toNat ≤ 0x3FFF ∧ a.toNat % 8 = 4)

/-- The states that a read of `a` in `s` can leave, by what the address is (R85, R88). -/
inductive ReadLeaves (a : Word) (s : State) : State → Prop where
  | nothing (h : QuietRead a) : ReadLeaves a s s
  | ppuStatus (h : 0x2000 ≤ a.toNat ∧ a.toNat ≤ 0x3FFF ∧ a.toNat % 8 = 2) : ReadLeaves a s (s.setPpu s.ppu.statusRead.2)
  | ppuData (h : 0x2000 ≤ a.toNat ∧ a.toNat ≤ 0x3FFF ∧ a.toNat % 8 = 7) :
      ReadLeaves a s (s.setPpu (s.ppu.dataRead s.params).2)
  | apuStatus (h : a.toNat = 0x4015) : ReadLeaves a s (s.setApu s.apu.statusRead.2)
  | joypad (h : a.toNat = 0x4016) :
      ReadLeaves a s ((s.setJoypadReads (s.joypadReads + 1)).emit (.joypadRead s.joypadReads))
  | diagnostic (h : ¬ QuietRead a) (h5 : a.toNat ≠ 0x4015) (h6 : a.toNat ≠ 0x4016) (e : Event) : ReadLeaves a s (s.emit e)

/-- A read of the PPU window leaves one of these states (R270). -/
theorem busRead_ppu_leaves {a : Word} (lo : 0x2000 ≤ a.toNat) (hi : a.toNat ≤ 0x3FFF) (s : State) :
    ReadLeaves a s (busRead a s).2 := by
  rcases (by omega : a.toNat % 8 = 2 ∨ a.toNat % 8 = 4 ∨ a.toNat % 8 = 7 ∨
      (a.toNat % 8 = 0 ∨ a.toNat % 8 = 1 ∨ a.toNat % 8 = 3 ∨ a.toNat % 8 = 5 ∨ a.toNat % 8 = 6)) with h | h | h | h
  · rw [busRead_ppuStatus lo hi h]; exact .ppuStatus ⟨lo, hi, h⟩
  · rw [busRead_oamData lo hi h]; exact .nothing (.inr (.inr ⟨lo, hi, h⟩))
  · rw [busRead_ppuData lo hi h]; exact .ppuData ⟨lo, hi, h⟩
  · rw [busRead_ppuWriteOnly lo hi (by simpa using h)]
    exact .diagnostic (by unfold QuietRead HoldsByte; omega) (by omega) (by omega) _

theorem busRead_leaves (a : Word) (s : State) : ReadLeaves a s (busRead a s).2 := by
  rcases (by unfold HoldsByte; omega : HoldsByte a ∨ (0x2000 ≤ a.toNat ∧ a.toNat ≤ 0x3FFF) ∨
      (0x4000 ≤ a.toNat ∧ a.toNat ≤ 0x4014) ∨ a.toNat = 0x4015 ∨ a.toNat = 0x4016 ∨ a.toNat = 0x4017 ∨
      (0x4018 ≤ a.toNat ∧ a.toNat ≤ 0x7FFF)) with h | ⟨lo, hi⟩ | ⟨lo, hi⟩ | h | h | h | ⟨lo, hi⟩
  · rw [busRead_memory a s ((holdsByte_iff a).1 h)]; exact .nothing (.inl h)
  · exact busRead_ppu_leaves lo hi s
  · rw [busRead_apuWriteOnly lo hi]
    exact .diagnostic (by unfold QuietRead HoldsByte; omega) (by omega) (by omega) _
  · rw [busRead_apuStatus h]; exact .apuStatus h
  · rw [busRead_joypad h]; exact .joypad h
  · rw [busRead_frameCounter h]; exact .nothing (.inr (.inl h))
  · rw [busRead_unmapped lo hi]
    exact .diagnostic (by unfold QuietRead HoldsByte; omega) (by omega) (by omega) _

section
variable {a : Word} {s t : State} (h : ReadLeaves a s t)
include h

theorem ReadLeaves.eq_of_quiet (hq : QuietRead a) : t = s := by
  cases h with
  | nothing h => rfl
  | diagnostic h h5 h6 e => exact absurd hq h
  | _ h => unfold QuietRead HoldsByte at hq; omega

/-- Only the status and data ports change the PPU (R85). -/
theorem ReadLeaves.ppu (hp : ¬ (0x2000 ≤ a.toNat ∧ a.toNat ≤ 0x3FFF ∧ a.toNat % 8 ∈ [2, 7])) : t.ppu = s.ppu := by
  cases h with
  | ppuStatus h => exact absurd ⟨h.1, h.2.1, by simp [h.2.2]⟩ hp
  | ppuData h => exact absurd ⟨h.1, h.2.1, by simp [h.2.2]⟩ hp
  | _ => rfl

/-- Only `0x4015` changes the APU (R85). -/
theorem ReadLeaves.apu (ha : a.toNat ≠ 0x4015) : t.apu = s.apu := by
  cases h with
  | apuStatus h => exact absurd h ha
  | _ => rfl

/-- Of the APU a read changes the frame IRQ only (R388). -/
theorem ReadLeaves.apu_eq : t.apu = { s.apu with fc := { s.apu.fc with frameIrq := t.apu.fc.frameIrq } } := by
  cases h <;> rfl

/-- `0x4015` clears the frame IRQ (R388). -/
theorem ReadLeaves.frameIrq (ha : a.toNat = 0x4015) : t.apu.fc.frameIrq = false := by
  cases h with
  | apuStatus h => rfl
  | nothing h => unfold QuietRead HoldsByte at h; omega
  | diagnostic h h5 h6 e => exact absurd ha h5
  | _ h => omega

/-- `0x4016` counts one call of the joypad (R99). -/
theorem ReadLeaves.joypadReads : t.joypadReads = if a.toNat = 0x4016 then s.joypadReads + 1 else s.joypadReads := by
  cases h with
  | joypad h => rw [if_pos h]; rfl
  | nothing h => rw [if_neg (by unfold QuietRead HoldsByte at h; omega)]
  | diagnostic h h5 h6 e => rw [if_neg h6]; rfl
  | _ h => rw [if_neg (by omega)]; rfl

/-- No read cancels the NMI request or moves the OAM address (R276, R281). -/
theorem ReadLeaves.nmiPending_oamAddr : t.ppu.nmiPending = s.ppu.nmiPending ∧ t.ppu.oamAddr = s.ppu.oamAddr := by
  cases h with
  | ppuData h => unfold Ppu.dataRead; split <;> exact ⟨rfl, rfl⟩
  | _ => exact ⟨rfl, rfl⟩

/-- Nothing but the PPU, the APU, the joypad and the events can change (R85). -/
theorem ReadLeaves.frame :
    t = { s with ppu := t.ppu, apu := t.apu, joypadReads := t.joypadReads, events := t.events } := by
  cases h <;> rfl

end

/-! ## OAM DMA -/

/-- The write to the DMA register, with its stall (R116). -/
theorem busWrite_oamDma (page : Byte) (s : State) :
    busWrite 0x4014 page s = (oamDmaCopy page 256 s).setDmaStall (if s.cyc % 2 = 0 then 513 else 514) := by
  have stall : 513 + s.cyc % 2 = if s.cyc % 2 = 0 then 513 else 514 := by split <;> omega
  rw [← stall, ← oamDmaCopy_cyc page 256 s]; rfl

/-- Each byte is one bus read and one write to the OAM data port (R115). -/
theorem oamDmaByte_eq (page : Byte) (k : Nat) (s : State) :
    oamDmaByte page k s =
      busWrite 0x2004 (busRead (word page (BitVec.ofNat 8 k)) s).1 (busRead (word page (BitVec.ofNat 8 k)) s).2 := rfl

/-- The OAM address moves on by one for each byte copied (R282). -/
theorem oamDmaCopy_oamAddr (page : Byte) (n : Nat) (s : State) :
    (oamDmaCopy page n s).ppu.oamAddr = s.ppu.oamAddr + BitVec.ofNat 8 n := by
  induction n with
  | zero => simp [oamDmaCopy]
  | succ n ih =>
    have read := (busRead_leaves (word page (BitVec.ofNat 8 n)) (oamDmaCopy page n s)).nmiPending_oamAddr.2
    rw [BitVec.ofNat_add, ← BitVec.add_assoc, ← ih, ← read]; rfl

/-- After a whole page the OAM address is where it was. -/
theorem oamDmaCopy_page_oamAddr (page : Byte) (s : State) : (oamDmaCopy page 256 s).ppu.oamAddr = s.ppu.oamAddr :=
  (oamDmaCopy_oamAddr page 256 s).trans (BitVec.add_zero _)

@[simp] theorem oamDmaCopy_memByte (page : Byte) (n : Nat) (s : State) (a : Word) :
    (oamDmaCopy page n s).memByte a = s.memByte a :=
  memByte_congr _ _ _ (by simp) (by simp)

/-- The addresses of a page, counted from its first. -/
theorem word_eq_ofNat (page : Byte) {k : Nat} (h : k < 256) :
    word page (BitVec.ofNat 8 k) = BitVec.ofNat 16 (256 * page.toNat + k) := by
  apply BitVec.eq_of_toNat_eq
  rw [word_toNat, BitVec.toNat_ofNat, BitVec.toNat_ofNat]
  have := page.isLt
  omega

/-- A page is all memory or not at all. -/
theorem holdsByte_word {page : Byte} (h : HoldsByte (word page 0x00)) (b : Byte) : HoldsByte (word page b) := by
  have := b.isLt
  unfold HoldsByte at *
  rw [word_toNat] at *
  omega

section
variable {page : Byte} (hp : HoldsByte (word page 0x00))
include hp

/-- A byte of memory is copied with no side effect (R85, R115). -/
theorem oamDmaByte_memory (k : Nat) (s : State) :
    oamDmaByte page k s = s.setPpu (s.ppu.oamDataWrite (s.memByte (word page (BitVec.ofNat 8 k)))) := by
  rw [oamDmaByte, busRead_memory _ s ((holdsByte_iff _).1 (holdsByte_word hp _))]

/-- Copying a page of memory touches the OAM and its address alone. -/
theorem oamDmaCopy_memory (n : Nat) (s : State) :
    oamDmaCopy page n s =
      s.setPpu
        { s.ppu with oam := (oamDmaCopy page n s).ppu.oam, oamAddr := (oamDmaCopy page n s).ppu.oamAddr } := by
  induction n with
  | zero => rfl
  | succ n ih =>
    rw [oamDmaCopy, oamDmaByte_memory hp]
    generalize (oamDmaCopy page n s).memByte _ = v
    rw [ih]; rfl

/-- The `k`-th byte copied stands `k` places on from the OAM address, wrapping (R115, R282). -/
theorem oamDmaCopy_oam {n k : Nat} (hn : n ≤ 256) (hk : k < n) (s : State) :
    (oamDmaCopy page n s).ppu.oam.read ((s.ppu.oamAddr.toNat + k) % 256) = s.memByte (word page (BitVec.ofNat 8 k)) := by
  induction n with
  | zero => omega
  | succ n ih =>
    have index : (s.ppu.oamAddr + BitVec.ofNat 8 n).toNat = (s.ppu.oamAddr.toNat + n) % 256 := by simp
    have oam : (oamDmaCopy page (n + 1) s).ppu.oam = (oamDmaCopy page n s).ppu.oam.write
        ((s.ppu.oamAddr.toNat + n) % 256) (s.memByte (word page (BitVec.ofNat 8 n))) := by
      rw [oamDmaCopy, oamDmaByte_memory hp, oamDmaCopy_memByte, ← index, ← oamDmaCopy_oamAddr page n s]; rfl
    rw [oam, Memory.read_write]
    rcases Nat.lt_succ_iff_lt_or_eq.1 hk with hlt | rfl
    · rw [if_neg (by omega), ih (by omega) hlt]
    · rw [if_pos rfl]

end

/-! ## Where an instruction stores (R84, R160, R21) -/

@[simp] theorem setP_memByte (s : State) (v : Byte) (a : Word) : (s.setP v).memByte a = s.memByte a := rfl
@[simp] theorem setPC_memByte (s : State) (v : Word) (a : Word) : (s.setPC v).memByte a = s.memByte a := rfl
@[simp] theorem setStepCycles_memByte (s : State) (n : Nat) (a : Word) : (s.setStepCycles n).memByte a = s.memByte a := rfl

theorem ReadEffect.memByte {n : Mnemonic} {effect : Byte → State → State} (h : ReadEffect n effect) (m : Byte) (s : State)
    (a : Word) : (effect m s).memByte a = s.memByte a := by
  cases h <;> rfl

/-- A push stores at the stack pointer's address alone (R21). -/
theorem push_memByte_of_not {s : State} {a : Word} (h : ¬ SameRamByte (stackAddr s.sp) a) (v : Byte) :
    (push v s).memByte a = s.memByte a :=
  busWrite_memByte_of_not _ a v s h

/-- A 16-bit push stores at two addresses (R82). -/
theorem push16_memByte_of_not {s : State} {a : Word} (h0 : ¬ SameRamByte (stackAddr s.sp) a)
    (h1 : ¬ SameRamByte (stackAddr (s.sp - 1)) a) (w : Word) : (push16 w s).memByte a = s.memByte a := by
  rw [← push_memByte_of_not h0 (hiByte w)]
  exact push_memByte_of_not (by simpa [push_eq] using h1) (loByte w)

/-- Entering a handler stores at three addresses (R407). -/
theorem enterHandler_memByte_of_not {s : State} {a : Word} (h0 : ¬ SameRamByte (stackAddr s.sp) a)
    (h1 : ¬ SameRamByte (stackAddr (s.sp - 1)) a) (h2 : ¬ SameRamByte (stackAddr (s.sp - 2)) a) (ret : Word) (status : Byte)
    (vector : Word) : (enterHandler ret status vector s).memByte a = s.memByte a := by
  calc (enterHandler ret status vector s).memByte a
    _ = (push status (push16 ret s)).memByte a :=
      memByte_congr _ _ a (by simp [enterHandler, read16]) (by simp [enterHandler, read16])
    _ = (push16 ret s).memByte a := push_memByte_of_not (by simpa [push16_eq] using h2) status
    _ = s.memByte a := push16_memByte_of_not h0 h1 ret

section
variable {i : Instr} {s w : State} {a : Word} (ha : ∀ e ∈ storesTo i s, ¬ SameRamByte e a)
include ha

/-- A store stores at its operand (R160). -/
theorem Stored.not_sameRamByte {v : Byte} (h : Stored s i.mnemonic v) : ¬ SameRamByte (eaOf i s) a := by
  generalize hm : i.mnemonic = n at h
  refine ha _ ?_
  cases h <;> simp [storesTo, hm]

/-- A read-modify-write on memory stores at its operand (R84). -/
theorem ModifyOp.not_sameRamByte {op : Byte → Byte → Byte × Byte} (h : ModifyOp i.mnemonic op) (hmode : i.mode ≠ .accumulator) :
    ¬ SameRamByte (eaOf i s) a := by
  generalize hm : i.mnemonic = n at h
  refine ha _ ?_
  cases h <;> simp [storesTo, hm, hmode]

/-- Of the one-byte instructions the pushes store, at the stack pointer's address (R251, R252). -/
theorem Implied.memByte (h : Implied s i.mnemonic w) : w.memByte a = s.memByte a := by
  generalize hm : i.mnemonic = n at h
  cases h with
  | pha => exact push_memByte_of_not (ha _ (by simp [storesTo, hm])) _
  | php => exact push_memByte_of_not (ha _ (by simp [storesTo, hm])) _
  | plp => rw [pop_eq]; rfl
  | pla => rw [pop_eq]; rfl
  | _ => rfl

/-- Of the jumps JSR stores, at two addresses (R222). -/
theorem Jump.memByte (h : Jump i s i.mnemonic w) : w.memByte a = s.memByte a := by
  generalize hm : i.mnemonic = n at h
  cases h with
  | jmp => rw [setPC_memByte, operandOf_memByte]
  | jsr => rw [setPC_memByte, push16_memByte_of_not (ha _ (by simp [storesTo, hm])) (ha _ (by simp [storesTo, hm]))]
  | rts => rw [pop16_eq]; rfl
  | rti => rw [returnFromInterrupt_eq]; rfl

end

/-- A byte that is no image of one an instruction stores is as before. -/
theorem exec_memByte {i : Instr} {s t : State} (hx : exec i s = .next t) {a : Word}
    (ha : ∀ e ∈ storesTo i s, ¬ SameRamByte e a) : t.memByte a = s.memByte a := by
  cases exec_shape hx with
  | read effect h e => rw [e, endAt_memByte, h.memByte, sourceOf_memByte]
  | store v h e => rw [e, endAt_memByte, busWrite_memByte_of_not _ _ _ _ (h.not_sameRamByte ha), operandOf_memByte]
  | modify op h hm e =>
    rw [e, endAt_memByte, setP_memByte, busWrite_memByte_of_not _ _ _ _ (h.not_sameRamByte ha hm), sourceOf_memByte]
  | modifyA op h hm e => rw [e]; rfl
  | implied w h e => rw [e, endAt_memByte, h.memByte ha]
  | jump w h e => rw [e, setStepCycles_memByte, h.memByte ha]
  | halt h hb e => rw [e]; rfl
  | software h hb e =>
    subst h
    have stores : storesTo .brk s = [stackAddr s.sp, stackAddr (s.sp - 1), stackAddr (s.sp - 2)] := if_pos hb
    simp only [stores, List.forall_mem_cons] at ha
    obtain ⟨h0, h1, h2, -⟩ := ha
    rw [e, setStepCycles_memByte, enterHandler_memByte_of_not h0 h1 h2]
  | branch h pc cycles hc e => rw [e]; rfl

/-! ## The statements of the bus and the stores -/

/-- Settles O41: every image reads and writes the index modulo 2048. -/
theorem ramIsMirrored : Obligations.RamIsMirrored := by
  intro s a b v ha hb
  rw [busWrite_ramWindow ha, busRead_ramWindow ha, busRead_ramWindow hb s, busRead_ramWindow hb (s.setRam _)]
  refine ⟨rfl, rfl, fun h => ⟨by rw [h], by rw [h]; exact Memory.read_write_same _ _ _⟩, fun h => ?_, rfl⟩
  exact Memory.read_write_other _ _ _ _ (Ne.symm h)

/-- Settles O42: by the index of the address, for the two sizes. -/
theorem programRom : Obligations.ProgramRom := by
  intro s a v h
  rw [busRead_prgWindow h]
  refine ⟨rfl, fun hk => ?_, fun hk => ?_, fun hk ha => ?_, ?_, ?_⟩
  · rw [hk, prgIndex_k32]
  · rw [hk]; rfl
  · have h' : 0x8000 ≤ (a - 0x4000).toNat := by bv_omega
    rw [busRead_prgWindow h', hk, prgIndex_k16_sub ha]
  · cases s.params.prgSize
    · exact .inl rfl
    · exact .inr rfl
  · simp only [busWrite, (windowOf_prg_iff a).2 h]; rfl

/-- Settles O43: window by window. -/
theorem rejectedAccesses : Obligations.RejectedAccesses := by
  intro s a v
  refine ⟨fun lo hi => busRead_apuWriteOnly lo hi s, fun h => busRead_frameCounter h s,
    fun lo hi => ⟨busRead_unmapped lo hi s, ?_⟩, fun lo hi h => busRead_ppuWriteOnly lo hi h s, fun lo hi h => ?_⟩
  · simp only [busWrite, windowOf_unmapped lo hi]; rfl
  · rw [busWrite_ppu lo hi, h]; rfl

/-- Settles O44, by what a read can leave. -/
theorem readSideEffects : Obligations.ReadSideEffects := by
  refine ⟨fun s a b v la ha lb hb h => ⟨?_, ?_⟩, fun s a lo hi h => ?_, fun s a => ?_, fun s v => ⟨?_, rfl⟩⟩
  · rw [busRead_ppu la ha, busRead_ppu lb hb, h]
  · rw [busWrite_ppu la ha, busWrite_ppu lb hb, h]
  · rw [busRead_oamData lo hi h]; rfl
  · have leaves := busRead_leaves a s
    exact ⟨leaves.eq_of_quiet, leaves.ppu, leaves.apu, leaves.apu_eq, leaves.frameIrq, leaves.joypadReads,
      leaves.nmiPending_oamAddr.1, leaves.frame⟩
  · exact busRead_joypad rfl s

/-- Settles O45: the copy itself is the sequence of reads and writes; its content is an induction over the bytes copied. -/
theorem oamDmaCopiesThePage : Obligations.OamDmaCopiesThePage := by
  intro s page
  rw [busWrite_oamDma]
  refine ⟨⟨fun k => oamDmaCopy page k s, rfl, fun k _ => oamDmaByte_eq page k _, rfl⟩,
    oamDmaCopy_page_oamAddr page s, ?_, fun hp => ⟨fun k hk => ?_, ?_, ?_⟩⟩
  · obtain ⟨u, v, n, es, h⟩ := oamDmaCopy_touches page 256 s
    rw [h]; rfl
  · rw [← word_eq_ofNat page hk]
    exact oamDmaCopy_oam hp (Nat.le_refl 256) hk s
  · have h := congrArg State.ppu (oamDmaCopy_memory hp 256 s)
    rwa [oamDmaCopy_page_oamAddr] at h
  · rw [oamDmaCopy_memory hp 256 s]
    generalize oamDmaCopy page 256 s = copied
    rfl

/-- Settles O38: over the nine shapes of an instruction. -/
theorem memoryWrittenOnlyWhereStored : Obligations.MemoryWrittenOnlyWhereStored :=
  fun _ _ _ h _ ha => exec_memByte h ha

end Sys2Proof.Machine
end

section
/-! SUPPORT. The statements of device time (O14, O52): the NMI request and `frame_complete` across the dots of a batch, and how far
the devices advance in a step. -/

namespace Sys2Proof.Machine

/-! ## The dots of a batch -/

namespace Ppu

/-- The NMI request across one dot: vblank entry raises it where NMI generation is on, the wrap clears it (R313, R314). -/
theorem dot_nmiPending (u : Ppu) (h : u.TimerOk) :
    u.dot.nmiPending =
      if u.scanline * 341 + u.cycle + 1 = 82181 then u.nmiPending || u.ctrl.getLsbD 7
      else if u.scanline * 341 + u.cycle + 1 = 89342 then false else u.nmiPending := by
  obtain ⟨h1, h2⟩ : u.scanline < 262 ∧ u.cycle < 341 := h
  rw [dot_eq]
  split
  · split
    · rw [if_pos (by omega)]; rfl
    · split
      · rw [if_neg (by omega), if_pos (by omega)]
      · rw [if_neg (by omega), if_neg (by omega)]
  · rw [if_neg (by omega), if_neg (by omega)]

/-- A dot reports the frame complete exactly where it wraps (R314, R315). -/
theorem dot_frameComplete (u : Ppu) (h : u.TimerOk) :
    u.dot.frameComplete = (u.frameComplete || decide (u.scanline * 341 + u.cycle + 1 = 89342)) := by
  obtain ⟨h1, h2⟩ : u.scanline < 262 ∧ u.cycle < 341 := h
  rw [dot_eq]
  split
  · split
    · rw [decide_eq_false (by omega), Bool.or_false]
    · split
      · rw [decide_eq_true (by omega), Bool.or_true]
      · rw [decide_eq_false (by omega), Bool.or_false]
  · rw [decide_eq_false (by omega), Bool.or_false]

/-- Where the timer is in range, so is the position in the frame (R42). -/
theorem position_lt {u : Ppu} (h : u.TimerOk) : u.scanline * 341 + u.cycle < 89342 := by
  obtain ⟨h1, h2⟩ : u.scanline < 262 ∧ u.cycle < 341 := h
  omega

/-- The NMI request across so few dots that vblank entry and the wrap after it do not both lie among them. -/
theorem dots_nmiPending (n : Nat) {u : Ppu} (h : u.TimerOk) {start : Nat} (hs : u.scanline * 341 + u.cycle = start)
    (hn : n ≤ 7161) :
    (dots n u).nmiPending =
      if start < 82181 ∧ 82181 ≤ start + n then u.nmiPending || u.ctrl.getLsbD 7
      else if 89342 ≤ start + n then false else u.nmiPending := by
  have hstart : start < 89342 := hs ▸ position_lt h
  induction n with
  | zero => simp only [dots]; rw [if_neg (by omega), if_neg (by omega)]
  | succ n ih =>
    rw [dots, dot_nmiPending _ (dots_timerOk n u h), dots_position n u h, hs, dots_ctrl, ih (by omega)]
    by_cases entry : start + n + 1 = 82181
    · rw [if_pos (by omega), if_neg (by omega), if_neg (by omega), if_pos (by omega)]
    · rw [if_neg (by omega)]
      by_cases wrap : start + n + 1 = 89342
      · rw [if_pos (by omega), if_neg (by omega), if_pos (by omega)]
      · rw [if_neg (by omega)]
        exact if_ctx_congr (by omega) (fun _ => rfl) fun _ => if_ctx_congr (by omega) (fun _ => rfl) fun _ => rfl

/-- Dots report the frame complete exactly where they reach its end (R315). -/
theorem dots_frameComplete (n : Nat) (u : Ppu) (h : u.TimerOk) :
    (dots n u).frameComplete = true ↔ u.frameComplete = true ∨ 89342 ≤ u.scanline * 341 + u.cycle + n := by
  have hstart : u.scanline * 341 + u.cycle < 89342 := position_lt h
  induction n with
  | zero => simp only [dots]; exact ⟨.inl, fun h => h.resolve_right (by omega)⟩
  | succ n ih =>
    simp only [dots, dot_frameComplete _ (dots_timerOk n u h), dots_position n u h, Bool.or_eq_true, ih, decide_eq_true_iff,
      or_assoc]
    exact or_congr_right (by omega)

end Ppu

/-! ## Device time -/

/-- The row of an instruction costs something (R465). -/
theorem rowFor_cycles_pos (i : Instr) : 0 < (rowFor i).cycles := by
  cases i <;> exact Nat.succ_pos _

/-- Only BRK in halt mode costs nothing, and it stops the run (R226, R464). -/
theorem halted_of_exec_cost_zero {i : Instr} {s t : State} (hx : exec i s = .next t) (h0 : t.stepCycles = 0) :
    t.halted = true := by
  have row := rowFor_cycles_pos i
  cases exec_shape hx with
  | halt h hb e => rw [e]; rfl
  | read effect h e => rw [e, endAt_stepCycles] at h0; omega
  | store v h e => rw [e, endAt_stepCycles] at h0; omega
  | modify op h hm e => rw [e, endAt_stepCycles] at h0; omega
  | modifyA op h hm e => rw [e, endAt_stepCycles] at h0; omega
  | implied w h e => rw [e, endAt_stepCycles] at h0; omega
  | jump w h e => rw [e, State.setStepCycles_stepCycles] at h0; omega
  | software h hb e => rw [e, State.setStepCycles_stepCycles] at h0; omega
  | branch h pc cycles hc e => rw [e, State.setStepCycles_stepCycles] at h0; omega

/-- From `s` to `t` the devices advance by `n` cycles: three dots and one APU tick for each (R120). -/
structure Elapsed (n : Nat) (s t : State) : Prop where
  cyc : t.cyc = s.cyc + n
  position : t.ppu.scanline * 341 + t.ppu.cycle = (s.ppu.scanline * 341 + s.ppu.cycle + 3 * n) % 89342
  apuOdd : t.apu.apuOdd = (s.apu.apuOdd ^^ decide (n % 2 = 1))

section
variable {s w : State} (hu : Untimed s w) (ht : s.ppu.TimerOk)
include hu ht

/-- Bus accesses alone take no device time. -/
theorem Untimed.elapsed : Elapsed 0 s w where
  cyc := hu.cyc
  position := by rw [hu.scanline, hu.cycle]; exact Ppu.dots_position 0 s.ppu ht
  apuOdd := by rw [hu.apuOdd]; exact Apu.ticks_apuOdd 0 s.apu

/-- Bus accesses and a batch of `n` cycles take `n` cycles (R120). -/
theorem Untimed.elapsed_tickBatch (n : Nat) : Elapsed n s (tickBatch n w) where
  cyc := by rw [tickBatch_cyc, hu.cyc]
  position := by
    have hw : w.ppu.TimerOk := ⟨hu.scanline ▸ ht.1, hu.cycle ▸ ht.2⟩
    rw [tickBatch_ppu, ← hu.scanline, ← hu.cycle]
    exact Ppu.dots_position (3 * n) { w.ppu with frameComplete := false } hw
  apuOdd := by rw [tickBatch_apu, Apu.ticks_apuOdd, hu.apuOdd]

/-- An instruction and the end of its step take the instruction's cost. -/
theorem Untimed.elapsed_afterInstruction : Elapsed w.stepCycles s (afterInstruction w) := by
  rcases afterInstruction_touches w with ⟨h0, es, e⟩ | ⟨-, es, e⟩
  · obtain ⟨hc, hp, ho⟩ := hu.elapsed ht
    rw [e, h0]; exact ⟨hc, hp, ho⟩
  · obtain ⟨hc, hp, ho⟩ := hu.elapsed_tickBatch ht w.stepCycles
    rw [e]; exact ⟨hc, hp, ho⟩

end

@[simp] theorem afterInstruction_stepCycles (s : State) : (afterInstruction s).stepCycles = s.stepCycles := by
  rcases afterInstruction_touches s with ⟨-, es, e⟩ | ⟨-, es, e⟩ <;> simp [e]

@[simp] theorem afterInstruction_halted (s : State) : (afterInstruction s).halted = s.halted := by
  rcases afterInstruction_touches s with ⟨-, es, e⟩ | ⟨-, es, e⟩ <;> simp [e]

@[simp] theorem interruptStep_stepCycles (k : Interrupt) (s : State) : (interruptStep k s).stepCycles = 7 := by
  simp [interruptStep, Config.intCycles]

theorem interruptStep_elapsed (k : Interrupt) {s : State} (ht : s.ppu.TimerOk) : Elapsed 7 s (interruptStep k s) := by
  have start : Untimed s (beginStep s) := .of_eq rfl rfl rfl rfl rfl rfl rfl rfl rfl
  exact ((start.trans (.interruptEntry k _)).trans (.setStepCycles _ _)).elapsed_tickBatch ht 7

theorem fetch_untimed {s : State} {f : Fetched} (h : fetch (beginInstruction s) = f) : Untimed s f.state :=
  h ▸ (Untimed.beginInstruction s).trans (.fetch _)

theorem fetch_stepCycles {s : State} {f : Fetched} (h : fetch (beginInstruction s) = f) : f.state.stepCycles = 0 := by
  obtain ⟨u, v, k, es, e⟩ := fetch_touches (beginInstruction s)
  rw [← h, e]; rfl

/-! ## The statements of device time -/

/-- Settles O14, by the kinds of step: bus accesses take no device time, and the batch takes the cost. -/
theorem timeAdvancesByTheCost : Obligations.TimeAdvancesByTheCost := by
  intro s t hr hq hf hh ht hstep
  rcases step_cases hstep with ⟨hr', -⟩ | ⟨-, hs, -⟩ | ⟨-, -, -, -, step⟩
  · simp [hr] at hr'
  · simp [State.stopped, hq, hf, hh] at hs
  · rcases step with ⟨k, -, rfl⟩ | ⟨-, op, u, hfetch, rfl⟩ | ⟨-, i, u, v, hfetch, hx, rfl⟩
    · obtain ⟨hc, hp, ho⟩ := interruptStep_elapsed k ht
      rw [interruptStep_stepCycles]
      exact ⟨hc, hp, ho, fun h => absurd h (by decide)⟩
    · have cost : u.stepCycles = 0 := fetch_stepCycles hfetch
      have hu : Untimed s u := fetch_untimed hfetch
      obtain ⟨hc, hp, ho⟩ := hu.elapsed ht
      rw [State.setFault_stepCycles, cost]
      exact ⟨hc, hp, ho, fun _ => .inr (Option.some_ne_none _)⟩
    · have hu : Untimed s u := fetch_untimed hfetch
      obtain ⟨hc, hp, ho⟩ := (hu.trans (.exec hx)).elapsed_afterInstruction ht
      rw [afterInstruction_stepCycles, afterInstruction_halted]
      exact ⟨hc, hp, ho, fun h0 => .inl (halted_of_exec_cost_zero hx h0)⟩

/-- Settles O52: a batch of a step is too short to enter vblank and wrap as well, so the request rises exactly at vblank entry. -/
theorem frameReadyAtVblank : Obligations.FrameReadyAtVblank := by
  intro s n ht hn start t
  have pending : t.ppu.nmiPending =
      if start < 82181 ∧ 82181 ≤ start + 3 * n then s.ppu.nmiPending || s.ppu.ctrl.getLsbD 7
      else if 89342 ≤ start + 3 * n then false else s.ppu.nmiPending := by
    rw [show t.ppu = _ from tickBatch_ppu n s]
    exact Ppu.dots_nmiPending (3 * n) (u := { s.ppu with frameComplete := false }) ht rfl (by omega)
  have events : t.events =
      s.events ++ if s.ppu.nmiPending = false ∧ t.ppu.nmiPending = true then [.frameReady] else [] := tickBatch_events n s
  refine ⟨fun h1 h2 hc hp => ?_, fun h => ?_, ?_, tickBatch_eq n s⟩
  · have raised : t.ppu.nmiPending = true := by rw [pending, if_pos ⟨h1, h2⟩, hc, Bool.or_true]
    exact ⟨by rw [events, if_pos ⟨hp, raised⟩], raised⟩
  · have not_raised : ¬ (s.ppu.nmiPending = false ∧ t.ppu.nmiPending = true) := by
      rintro ⟨hp, hr⟩
      rw [pending, hp, Bool.false_or] at hr
      split at hr
      · next hv => exact h ⟨hv.1, hv.2, hr, hp⟩
      · simp at hr
    rw [events, if_neg not_raised, List.append_nil]
  · rw [show t.ppu = _ from tickBatch_ppu n s]
    simpa using Ppu.dots_frameComplete (3 * n) { s.ppu with frameComplete := false } ht

end Sys2Proof.Machine
end

section
/-! SUPPORT. The statements of the encoding (O1 to O5, O34, O35): the decoder against the encoder, byte by byte of the opcode map
and constructor by constructor; instructions against the rows of the encoding tables; operand addresses as numbers. -/

namespace Sys2Proof

open Sys2Proof.Machine

/-! ## Every instruction's bytes -/

open Laws.DecodeEncode in
/-- What `Laws.DecodeEncode` says of each constructor, of every instruction. -/
theorem decodeEncode (i : Instr) : Laws.DecodeEncode.Statement i :=
  Instr.casesOn (motive := Laws.DecodeEncode.Statement) i
    ldaIndX ldaZp ldaImm ldaAbs ldaIndY ldaZpX ldaAbsY ldaAbsX ldxImm ldxZp ldxAbs ldxZpY ldxAbsY ldyImm ldyZp ldyAbs
    ldyZpX ldyAbsX staIndX staZp staAbs staIndY staZpX staAbsY staAbsX stxZp stxAbs stxZpY styZp styAbs styZpX tax tay
    txa tya tsx txs adcIndX adcZp adcImm adcAbs adcIndY adcZpX adcAbsY adcAbsX sbcIndX sbcZp sbcImm sbcAbs sbcIndY
    sbcZpX sbcAbsY sbcAbsX andIndX andZp andImm andAbs andIndY andZpX andAbsY andAbsX oraIndX oraZp oraImm oraAbs
    oraIndY oraZpX oraAbsY oraAbsX eorIndX eorZp eorImm eorAbs eorIndY eorZpX eorAbsY eorAbsX cmpIndX cmpZp cmpImm
    cmpAbs cmpIndY cmpZpX cmpAbsY cmpAbsX cpxImm cpxZp cpxAbs cpyImm cpyZp cpyAbs bitZp bitAbs incZp incAbs incZpX
    incAbsX decZp decAbs decZpX decAbsX inx iny dex dey aslZp aslA aslAbs aslZpX aslAbsX lsrZp lsrA lsrAbs lsrZpX
    lsrAbsX rolZp rolA rolAbs rolZpX rolAbsX rorZp rorA rorAbs rorZpX rorAbsX jmpAbs jmpInd jsrAbs rts rti brk nop bcc
    bcs beq bne bmi bpl bvc bvs pha php plp pla clc sec cli sei cld sed clv

/-- R402: no constructor fails the check of mnemonic and mode. -/
@[simp] theorem wellFormed_eq_true (i : Instr) : i.wellFormed = true := (decodeEncode i).1

theorem decode_encode (i : Instr) (rest : List Byte) : decode (encode i ++ rest) = .ok i rest :=
  have ⟨_, _, decodes⟩ := decodeEncode i
  decodes rest

/-! ## Every byte of the opcode map -/

/-- The instruction that the entry of the byte `op` builds from an operand is encoded with this opcode byte and this operand
(R130), and a byte without an instruction is rejected by name (R149). -/
def Entry.EncodesAs (op : Byte) (d : Byte) (w : Word) : Entry → Prop
  | .f1 i => encode i = [op]
  | .f2 build => encode (build d) = [op, d]
  | .f3 build => encode (build w) = [op, loByte w, hiByte w]
  | .illegal => decode [op] = .rejected (.illegalOpcode op)

/-- The opcode map agrees with the encoder at each of the 256 bytes. -/
theorem lookup_ofNat_encodesAs {n : Nat} (h : n < 256) (d : Byte) (w : Word) :
    (lookup (BitVec.ofNat 8 n)).EncodesAs (BitVec.ofNat 8 n) d w := by
  interval_cases n <;> exact rfl

theorem encodesAs_of_lookup {op : Byte} {e : Entry} (h : lookup op = e) (d : Byte) (w : Word) : e.EncodesAs op d w := by
  have encodes : (lookup (BitVec.ofNat 8 op.toNat)).EncodesAs (BitVec.ofNat 8 op.toNat) d w :=
    lookup_ofNat_encodesAs op.isLt d w
  rwa [BitVec.ofNat_toNat, BitVec.setWidth_eq, h] at encodes

/-- What decodes is an instruction that the opcode byte's entry builds, from the operand of the entry's format (R130, R132). -/
theorem decode_cons_ok {op : Byte} {bytes rest : List Byte} {i : Instr} (h : decode (op :: bytes) = .ok i rest) :
    (lookup op = .f1 i ∧ bytes = rest) ∨
    (∃ build d, lookup op = .f2 build ∧ i = build d ∧ bytes = d :: rest) ∨
    (∃ build lo hi, lookup op = .f3 build ∧ i = build (word hi lo) ∧ bytes = lo :: hi :: rest) := by
  unfold decode at h
  dsimp only at h
  split at h
  · next e => cases h; exact .inl ⟨e, rfl⟩
  · next e => cases h; exact .inr (.inl ⟨_, _, e, rfl, rfl⟩)
  · next e => cases h; exact .inr (.inr ⟨_, _, _, e, rfl, rfl⟩)
  · cases h
  · cases h

theorem opcodeLength_eq_none_iff (op : Byte) : opcodeLength op = none ↔ lookup op = .illegal := by
  unfold opcodeLength
  cases lookup op <;> simp [Entry.length]

/-- The decoder rejects as illegal exactly the bytes without a length. -/
theorem decode_illegal_iff (op : Byte) (rest : List Byte) :
    decode (op :: rest) = .rejected (.illegalOpcode op) ↔ opcodeLength op = none := by
  rw [opcodeLength_eq_none_iff]
  constructor
  · intro h
    unfold decode at h
    dsimp only at h
    split at h
    case h_4 e => exact e
    all_goals simp at h
  · intro h
    simp [decode, h]

/-- Every byte without a length is on R149's list. -/
theorem mem_illegalBytes_of_opcodeLength : ∀ op : Byte, opcodeLength op = none → op ∈ illegalBytes := by decide

/-! ## Instructions and the rows of the encoding tables -/

/-- `rowFor` finds a row, and it is the instruction's (R148). -/
theorem rowFor_spec (i : Instr) :
    (rowsOf i.mnemonic).find? (fun r => r.opcode == opcodeOf i) = some (rowFor i) ∧
      i.mode = (rowFor i).mode ∧ i.length = (rowFor i).length := by
  cases i <;> exact ⟨rfl, rfl, rfl⟩

theorem hasRow_rowFor (i : Instr) : HasRow i (rowFor i) :=
  have ⟨found, mode, length⟩ := rowFor_spec i
  have same_opcode := List.find?_some found
  ⟨List.mem_of_find?_eq_some found, (beq_iff_eq.1 same_opcode).symm, mode, length⟩

/-- The instruction of an opcode byte whose operand bytes are 0; BRK for an illegal byte. -/
def opcodeInstr (op : Byte) : Instr :=
  match lookup op with
  | .f1 i => i
  | .f2 build => build 0
  | .f3 build => build 0
  | .illegal => .brk

/-- Every row of an encoding table is the row of its opcode's instruction (R148). -/
theorem opcodeInstr_of_mem_rowsOf (m : Mnemonic) :
    ∀ r ∈ rowsOf m, (opcodeInstr r.opcode).mnemonic = m ∧ opcodeOf (opcodeInstr r.opcode) = r.opcode ∧
      (opcodeInstr r.opcode).mode = r.mode ∧ (opcodeInstr r.opcode).length = r.length := by
  cases m <;> decide

/-- Mnemonic and mode do not depend on the operand (R130, R148). -/
theorem opcodeInstr_opcodeOf (i : Instr) :
    (opcodeInstr (opcodeOf i)).mnemonic = i.mnemonic ∧ (opcodeInstr (opcodeOf i)).mode = i.mode := by
  obtain ⟨listed, opcode, mode, -⟩ := hasRow_rowFor i
  obtain ⟨mnemonic', -, mode', -⟩ := opcodeInstr_of_mem_rowsOf i.mnemonic (rowFor i) listed
  rw [opcode, mode]
  exact ⟨mnemonic', mode'⟩

end Sys2Proof

namespace Sys2Proof.Machine

/-! ## Operand addresses as numbers -/

theorem pageCross_iff (a b : Word) : pageCross a b = true ↔ a.toNat / 256 ≠ b.toNat / 256 := by
  rw [pageCross, bne_iff_ne, ne_eq, ← BitVec.toNat_inj, hiByte_toNat, hiByte_toNat]

theorem zext16_add_toNat (d x : Byte) : (zext16 (d + x)).toNat = (d.toNat + x.toNat) % 256 := by
  rw [zext16_toNat, BitVec.toNat_add]

/-- Indexing is modulo 65536 (R141). -/
theorem indexed_ea_toNat (base : Word) (x : Byte) : (indexed base x).ea.toNat = (base.toNat + x.toNat) % 65536 := by
  rw [indexed, BitVec.toNat_add, zext16_toNat]

/-- The page test compares the base with the address (R13, R141). -/
theorem indexed_crossed_iff (base : Word) (x : Byte) :
    (indexed base x).crossed = true ↔ base.toNat / 256 ≠ (indexed base x).ea.toNat / 256 :=
  pageCross_iff base _

/-- The address of a pointer's second byte lies in the pointer's own page (R145). -/
theorem word_hiByte_loByte_add_one (a : Word) :
    word (hiByte a) (loByte a + 1) = BitVec.ofNat 16 (256 * (a.toNat / 256) + (a.toNat + 1) % 256) := by
  apply BitVec.eq_of_toNat_eq
  have := a.isLt
  rw [word_toNat, hiByte_toNat, BitVec.toNat_add, loByte_toNat, BitVec.toNat_ofNat, show (1 : Byte).toNat = 1 from rfl]
  omega

section
variable {i : Instr} {s : State}

theorem operandOf_zeroPage (h : i.mode = .zeroPage) : operandOf i s = zeroPage (operandByte i) s := by
  simp only [operandOf, h]

theorem operandOf_zeroPageX (h : i.mode = .zeroPageX) : operandOf i s = zeroPageX (operandByte i) s := by
  simp only [operandOf, h]

theorem operandOf_zeroPageY (h : i.mode = .zeroPageY) : operandOf i s = zeroPageY (operandByte i) s := by
  simp only [operandOf, h]

theorem operandOf_absolute (h : i.mode = .absolute) : operandOf i s = absolute (operandWord i) s := by
  simp only [operandOf, h]

theorem operandOf_absoluteX (h : i.mode = .absoluteX) : operandOf i s = absoluteX (operandWord i) s := by
  simp only [operandOf, h]

theorem operandOf_absoluteY (h : i.mode = .absoluteY) : operandOf i s = absoluteY (operandWord i) s := by
  simp only [operandOf, h]

/-- The pointer of (indirect,X) is read from the zero page with no side effect (R143). -/
theorem operandOf_indirectX (h : i.mode = .indirectX) :
    operandOf i s =
      (⟨word (s.ram.read (operandByte i + s.x + 1).toNat) (s.ram.read (operandByte i + s.x).toNat), false⟩, s) := by
  simp only [operandOf, h, indirectX, readZP16_eq]

/-- The pointer of (indirect),Y is read from the zero page with no side effect (R144). -/
theorem operandOf_indirectY (h : i.mode = .indirectY) :
    operandOf i s =
      (indexed (word (s.ram.read (operandByte i + 1).toNat) (s.ram.read (operandByte i).toNat)) s.y, s) := by
  simp only [operandOf, h, indirectY, readZP16_eq]

theorem operandOf_indirect (h : i.mode = .indirect) : operandOf i s = indirect (operandWord i) s := by
  simp only [operandOf, h]

end

end Sys2Proof.Machine

namespace Sys2Proof

open Sys2Proof.Machine

/-! ## The statements of the encoding -/

/-- Settles O3, by the law of each constructor. -/
theorem decodeOfEncode : Obligations.DecodeOfEncode := by
  intro i rest _
  obtain ⟨-, length, decodes⟩ := decodeEncode i
  exact ⟨length, decodes rest⟩

/-- Settles O2: an instruction's row is the one with its opcode, and a row's instruction the one its opcode decodes to. -/
theorem instructionsAreTheTableRows : Obligations.InstructionsAreTheTableRows := by
  refine ⟨fun i => ⟨rowFor i, hasRow_rowFor i⟩, fun m r hr => ?_, fun i j hop => ?_⟩
  · obtain ⟨mnemonic, opcode, mode, length⟩ := opcodeInstr_of_mem_rowsOf m r hr
    exact ⟨opcodeInstr r.opcode, mnemonic, by rwa [mnemonic], opcode, mode, length⟩
  · obtain ⟨mnemonic_i, mode_i⟩ := opcodeInstr_opcodeOf i
    obtain ⟨mnemonic_j, mode_j⟩ := opcodeInstr_opcodeOf j
    rw [hop] at mnemonic_i mode_i
    have mode : i.mode = j.mode := mode_i.symm.trans mode_j
    exact ⟨mnemonic_i.symm.trans mnemonic_j, mode, congrArg Mode.length mode⟩

/-- Settles O4: the entry of the opcode byte builds what encodes as that byte and the operand. -/
theorem encodeOfDecode : Obligations.EncodeOfDecode := by
  intro bytes i rest h
  refine ⟨wellFormed_eq_true i, ?_⟩
  cases bytes with
  | nil => cases h
  | cons op bytes =>
    rcases decode_cons_ok h with ⟨e, rfl⟩ | ⟨build, d, e, rfl, rfl⟩ | ⟨build, lo, hi, e, rfl, rfl⟩
    · have bytes_eq : encode i = [op] := encodesAs_of_lookup e 0 0
      rw [bytes_eq]; rfl
    · have bytes_eq : encode (build d) = [op, d] := encodesAs_of_lookup e d 0
      rw [bytes_eq]; rfl
    · have bytes_eq : encode (build (word hi lo)) = [op, loByte (word hi lo), hiByte (word hi lo)] :=
        encodesAs_of_lookup e 0 (word hi lo)
      rw [bytes_eq, loByte_word, hiByte_word]; rfl

/-- Settles O34, mode by mode. -/
theorem directOperandAddresses : Obligations.DirectOperandAddresses := by
  intro i s
  refine ⟨fun h => ?_, fun h => ?_, fun h => ?_, fun h => ?_, fun h => ?_, fun h => ?_, fun h => ?_, fun h => ?_, fun h => ?_⟩
  · rw [eaOf, operandOf_zeroPage h]; exact zext16_toNat _
  · rw [eaOf, operandOf_zeroPageX h]; exact zext16_add_toNat _ _
  · rw [eaOf, operandOf_zeroPageY h]; exact zext16_add_toNat _ _
  · rw [eaOf, operandOf_absolute h]; rfl
  · rw [eaOf, operandOf_absoluteX h]; exact indexed_ea_toNat _ _
  · rw [eaOf, operandOf_absoluteY h]; exact indexed_ea_toNat _ _
  · rcases h with h | h
    · rw [eaOf, operandOf_absoluteX h]; exact indexed_crossed_iff _ _
    · rw [eaOf, operandOf_absoluteY h]; exact indexed_crossed_iff _ _
  · rcases h with h | h | h | h
    · rw [operandOf_zeroPage h]; rfl
    · rw [operandOf_zeroPageX h]; rfl
    · rw [operandOf_zeroPageY h]; rfl
    · rw [operandOf_absolute h]; rfl
  · simp only [List.mem_cons, List.not_mem_nil, or_false] at h
    rcases h with h | h | h | h | h | h
    · rw [operandOf_zeroPage h]; rfl
    · rw [operandOf_zeroPageX h]; rfl
    · rw [operandOf_zeroPageY h]; rfl
    · rw [operandOf_absolute h]; rfl
    · rw [operandOf_absoluteX h]; rfl
    · rw [operandOf_absoluteY h]; rfl

/-- Settles O35: the zero page's pointers are read from RAM, the indirect jump's through the bus. -/
theorem pointerOperandAddresses : Obligations.PointerOperandAddresses := by
  intro i s
  refine ⟨fun h => ?_, fun h => ?_, fun h => ?_⟩
  · rw [eaOf, operandOf_indirectX h]
    refine ⟨?_, rfl, rfl⟩
    rw [word_toNat, BitVec.toNat_add _ 1, BitVec.toNat_add]; rfl
  · rw [eaOf, operandOf_indirectY h]
    have base : (word (s.ram.read (operandByte i + 1).toNat) (s.ram.read (operandByte i).toNat)).toNat =
        256 * (s.ram.read (((operandByte i).toNat + 1) % 256)).toNat + (s.ram.read (operandByte i).toNat).toNat := by
      rw [word_toNat, BitVec.toNat_add]; rfl
    dsimp only
    rw [← base]
    exact ⟨indexed_ea_toNat _ _, indexed_crossed_iff _ _, rfl⟩
  · rw [eaOf, operandOf_indirect h]
    simp only [indirect, readBug16, word_hiByte_loByte_add_one, word_toNat, and_self]

/-- Settles O1: each word is the encoding of its instruction. -/
theorem sampleWordsDecode : Obligations.SampleWordsDecode :=
  ⟨decode_encode (.ldaImm 0xC0) [], decode_encode (.staAbs 0x1234) [], decode_encode .tsx [], decode_encode (.adcIndY 0x10) [],
    decode_encode (.decAbsX 0x1234) [], decode_encode .rorA [], decode_encode (.jmpInd 0x02FF) [],
    decode_encode (.bmi 0x80) [], decode_encode .plp [], decode_encode .sed []⟩

/-- Settles O5: the bytes of R149 are those without a length. -/
theorem illegalBytesAreRejected : Obligations.IllegalBytesAreRejected := by
  refine ⟨rfl, fun op rest => ?_⟩
  rw [decode_illegal_iff]
  exact ⟨opcodeLength_of_illegal op, mem_illegalBytes_of_opcodeLength op⟩

end Sys2Proof
end

section
/-! SUPPORT. The statements of the loads, the stores and the transfers (O20 to O22): how an instruction that does not write `PC`
completes, by the shape of its rule. -/

namespace Sys2Proof.Machine

/-! ## `exec` by the shape of the rule -/

section
variable {i : Instr} {s w : State}

theorem ReadEffect.exec_eq {effect : Byte → State → State} (h : ReadEffect i.mnemonic effect) :
    exec i s = readBy i s effect := by
  rw [Machine.exec_eq, execByMnemonic]
  generalize i.mnemonic = n at h
  cases h <;> rfl

theorem Stored.exec_eq {v : Byte} (h : Stored s i.mnemonic v) : exec i s = storeBy i s v := by
  rw [Machine.exec_eq, execByMnemonic]
  generalize i.mnemonic = n at h
  cases h <;> rfl

theorem Implied.exec_eq (h : Implied s i.mnemonic w) : exec i s = impliedBy i w := by
  rw [Machine.exec_eq, execByMnemonic]
  generalize i.mnemonic = n at h
  cases h <;> rfl

end

/-! ## The page penalty (R466) -/

theorem penaltyOf_eq (i : Instr) (s : State) :
    penaltyOf i s = if (rowFor i).penalty = true ∧ (operandOf i s).1.crossed = true then 1 else 0 :=
  (ite_and _ _ _ _).symm

theorem penaltyOf_eq_zero {i : Instr} (h : ∀ r ∈ rowsOf i.mnemonic, r.penalty = false) (s : State) : penaltyOf i s = 0 :=
  if_neg (by simp [h (rowFor i) (hasRow_rowFor i).1])

/-- No store pays a page penalty. -/
theorem Stored.penalty {s : State} {n : Mnemonic} {v : Byte} (h : Stored s n v) : ∀ r ∈ rowsOf n, r.penalty = false := by
  cases h <;> decide

/-- No one-byte instruction pays a page penalty. -/
theorem Implied.penalty {s w : State} {n : Mnemonic} (h : Implied s n w) : ∀ r ∈ rowsOf n, r.penalty = false := by
  cases h <;> decide

/-! ## The processor after an operation -/

@[simp] theorem endAt_cpu (w : State) (len cycles : Nat) :
    (endAt w len cycles).cpu = { w.cpu with pc := w.pc + BitVec.ofNat 16 len, cost := cycles + w.dmaStall } := rfl

@[simp] theorem operandOf_cpu (i : Instr) (s : State) : (operandOf i s).2.cpu = s.cpu := by
  obtain ⟨u, v, n, es, h⟩ := operandOf_touches i s
  rw [h]; rfl

@[simp] theorem sourceOf_cpu (i : Instr) (s : State) : (sourceOf i s).2.cpu = s.cpu := by
  obtain ⟨u, v, n, es, h⟩ := sourceOf_touches i s
  rw [h]; rfl

/-- The processor's flags are those of the status byte (R26). -/
theorem State.cpu_eq_flags (s : State) : s.cpu =
    { a := s.a, x := s.x, y := s.y, sp := s.sp, pc := s.pc
      c := getFlag s.p .c, z := getFlag s.p .z, i := getFlag s.p .i, d := getFlag s.p .d
      b := getFlag s.p .b, u := getFlag s.p .u, v := getFlag s.p .v, n := getFlag s.p .n
      cost := s.stepCycles } := rfl

/-- `SetZN` on the status byte is `SetZN` on the flags (R13). -/
theorem setP_setZN_cpu (v : Byte) (s : State) : (s.setP (setZN v s.p)).cpu = s.cpu.setZN v := by
  simp [State.cpu_eq_flags, Cpu.setZN]

@[simp] theorem loadA_cpu (v : Byte) (s : State) : (loadA v s).cpu = ({ s.cpu with a := v } : Cpu).setZN v :=
  setP_setZN_cpu v (s.setA v)

@[simp] theorem loadX_cpu (v : Byte) (s : State) : (loadX v s).cpu = ({ s.cpu with x := v } : Cpu).setZN v :=
  setP_setZN_cpu v (s.setX v)

@[simp] theorem loadY_cpu (v : Byte) (s : State) : (loadY v s).cpu = ({ s.cpu with y := v } : Cpu).setZN v :=
  setP_setZN_cpu v (s.setY v)

theorem ReadEffect.outside {n : Mnemonic} {effect : Byte → State → State} (h : ReadEffect n effect) (m : Byte) (s : State) :
    (effect m s).outside = s.outside := by
  cases h <;> rfl

/-! ## Completion (R25, R131) -/

/-- An instruction that ends by moving `PC` past itself completes with the processor of the state before that end. -/
theorem completes_of_advance {i : Instr} {s w mid : State} {c : Cpu}
    (hx : exec i s = advance (rowFor i).length ((rowFor i).cycles + penaltyOf i s) w)
    (cpu : w.cpu = c) (pc : c.pc = s.pc) (outside : w.outside = mid.outside) :
    ∃ r : Row, HasRow i r ∧ Completes i s mid (c.next i r s mid) := by
  subst cpu
  have pc' : w.pc = s.pc := pc
  have stall : w.dmaStall = mid.dmaStall := congrArg Outside.dmaStall outside
  refine ⟨rowFor i, hasRow_rowFor i, endAt w _ _, hx, ?_, outside⟩
  rw [endAt_cpu, pc', stall, penaltyOf_eq, Cpu.next]

section
variable {i : Instr} {s : State} {c : Cpu}

/-- A read instruction completes with what its reads leave and the processor its effect makes. -/
theorem ReadEffect.completes {effect : Byte → State → State} (h : ReadEffect i.mnemonic effect)
    (cpu : (effect (sourceOf i s).1 (sourceOf i s).2).cpu = c) (pc : c.pc = s.pc) :
    ∃ r : Row, HasRow i r ∧ Completes i s (sourceOf i s).2 (c.next i r s (sourceOf i s).2) :=
  completes_of_advance h.exec_eq cpu pc (h.outside _ _)

/-- A store completes with what its one write leaves and the processor as before. -/
theorem Stored.completes {v : Byte} (h : Stored s i.mnemonic v) :
    ∃ r : Row, HasRow i r ∧ Completes i s (busWrite (eaOf i s) v (operandOf i s).2)
      (s.cpu.next i r s (busWrite (eaOf i s) v (operandOf i s).2)) :=
  completes_of_advance (by rw [penaltyOf_eq_zero h.penalty]; exact h.exec_eq) (by rw [busWrite_cpu, operandOf_cpu]) rfl rfl

/-- A one-byte instruction completes with the state it makes. -/
theorem Implied.completes {w mid : State} (h : Implied s i.mnemonic w) (cpu : w.cpu = c) (pc : c.pc = s.pc)
    (outside : w.outside = mid.outside) : ∃ r : Row, HasRow i r ∧ Completes i s mid (c.next i r s mid) :=
  completes_of_advance (by rw [penaltyOf_eq_zero h.penalty]; exact h.exec_eq) cpu pc outside

end

/-! ## What a store leaves in memory -/

/-- A write to RAM is read back through every image of the byte (R91). -/
theorem busWrite_memByte_of_same {e a : Word} (h : SameRamByte e a) (v : Byte) (s : State) :
    (busWrite e v s).memByte a = v := by
  rw [busWrite_memByte, if_pos ((sameRamByte_iff e a).1 h)]

/-- A byte of memory after a store is as its one write leaves it (R160). -/
theorem Stored.memByte {i : Instr} {s t : State} {v : Byte} (h : Stored s i.mnemonic v) (hx : exec i s = .next t) (a : Word) :
    t.memByte a = (busWrite (eaOf i s) v (operandOf i s).2).memByte a := by
  rw [h.exec_eq] at hx
  rw [advance_shape hx, endAt_memByte]

/-! ## The statements of the loads, the stores and the transfers -/

/-- Settles O20: each load is a read instruction, and its effect loads a register. -/
theorem loads : Obligations.Loads := by
  intro i s
  refine ⟨fun hm => ?_, fun hm => ?_, fun hm => ?_⟩
  · have effect : ReadEffect i.mnemonic loadA := hm ▸ .lda
    exact effect.completes (by rw [loadA_cpu, sourceOf_cpu]) rfl
  · have effect : ReadEffect i.mnemonic loadX := hm ▸ .ldx
    exact effect.completes (by rw [loadX_cpu, sourceOf_cpu]) rfl
  · have effect : ReadEffect i.mnemonic loadY := hm ▸ .ldy
    exact effect.completes (by rw [loadY_cpu, sourceOf_cpu]) rfl

/-- Settles O21: a store is its one write, which stores the images of one byte of RAM and no other. -/
theorem stores : Obligations.Stores := by
  intro i s v h
  have stored : Stored s i.mnemonic v := by
    rcases h with ⟨hm, rfl⟩ | ⟨hm, rfl⟩ | ⟨hm, rfl⟩
    · exact hm ▸ .sta
    · exact hm ▸ .stx
    · exact hm ▸ .sty
  refine ⟨stored.completes, fun t hx => ⟨fun a same => ?_, fun a other => ?_⟩⟩
  · rw [stored.memByte hx, busWrite_memByte_of_same same]
  · rw [stored.memByte hx, busWrite_memByte_of_not _ _ _ _ other, operandOf_memByte]

/-- Settles O22: each transfer is a one-byte instruction that loads a register, and TXS is one that writes `SP` alone. -/
theorem transfers : Obligations.Transfers := by
  intro i s
  refine ⟨fun hm => ?_, fun hm => ?_, fun hm => ?_, fun hm => ?_, fun hm => ?_, fun hm => ?_⟩
  · have made : Implied s i.mnemonic (loadX s.a s) := hm ▸ .tax
    exact made.completes (loadX_cpu _ _) rfl rfl
  · have made : Implied s i.mnemonic (loadY s.a s) := hm ▸ .tay
    exact made.completes (loadY_cpu _ _) rfl rfl
  · have made : Implied s i.mnemonic (loadA s.x s) := hm ▸ .txa
    exact made.completes (loadA_cpu _ _) rfl rfl
  · have made : Implied s i.mnemonic (loadA s.y s) := hm ▸ .tya
    exact made.completes (loadA_cpu _ _) rfl rfl
  · have made : Implied s i.mnemonic (loadX s.sp s) := hm ▸ .tsx
    exact made.completes (loadX_cpu _ _) rfl rfl
  · have made : Implied s i.mnemonic (s.setSP s.x) := hm ▸ .txs
    exact made.completes rfl rfl rfl

end Sys2Proof.Machine
end

section
/-! SUPPORT. The statements of arithmetic and logic (O23 to O27): each flag computation on integers, the processor after each
operation, and how a read-modify-write on memory completes. -/

namespace Sys2Proof.Machine

/-! ## Bytes as numbers (R181, R182, R187) -/

theorem getLsbD_seven (v : Byte) : v.getLsbD 7 = decide (128 ≤ v.toNat) :=
  v.msb_eq_getLsbD_last.symm.trans v.msb_eq_decide

/-- Masking a byte with `0x80` tests its bit 7. -/
theorem and_0x80_bne_zero (v : Byte) : (v &&& 0x80 != 0) = v.getLsbD 7 := by
  have mask : v &&& 0x80 = if v.getLsbD 7 then 0x80 else 0 := BitVec.and_twoPow v 7
  rw [mask]
  cases v.getLsbD 7 <;> rfl

/-- R181's overflow test: the sign of the result is that of neither operand. -/
theorem overflowTest_iff (a m r : Byte) :
    ((m ^^^ r) &&& (r ^^^ a) &&& 0x80 != 0) = true ↔
      ¬ (128 ≤ m.toNat ↔ 128 ≤ r.toNat) ∧ ¬ (128 ≤ r.toNat ↔ 128 ≤ a.toNat) := by
  simp only [and_0x80_bne_zero, BitVec.getLsbD_and, BitVec.getLsbD_xor, bne_iff_ne, Bool.and_eq_true]
  simp only [getLsbD_seven, ne_eq, decide_eq_decide]

/-- The overflow test on a sum with carry holds where the true signed sum is out of range. -/
theorem overflow_eq (a m : Byte) (c : Bool) :
    (let r := BitVec.ofNat 8 (a.toNat + m.toNat + bit c)
     (m ^^^ r) &&& (r ^^^ a) &&& 0x80 != 0) =
      decide (a.toInt + m.toInt + bit c < -128 ∨ 127 < a.toInt + m.toInt + bit c) := by
  have carry : bit c ≤ 1 := by cases c <;> decide
  have ha := a.isLt
  have hm := m.isLt
  rw [Bool.eq_iff_iff, overflowTest_iff, decide_eq_true_iff, BitVec.toNat_ofNat, BitVec.toInt_eq_toNat_cond,
    BitVec.toInt_eq_toNat_cond]
  split <;> split <;> omega

theorem eq_add_one_of_toNat {v m : Byte} (h : v.toNat = (m.toNat + 1) % 256) : v = m + 1 :=
  BitVec.eq_of_toNat_eq (h.trans (BitVec.toNat_add m 1).symm)

theorem eq_sub_one_of_toNat {v m : Byte} (h : v.toNat = (m.toNat + 255) % 256) : v = m - 1 :=
  BitVec.eq_of_toNat_eq (by rw [h, BitVec.toNat_sub, Nat.add_comm]; rfl)

/-- Bit 7 of a difference modulo 256 (R187). -/
theorem getLsbD_seven_sub (v m : Byte) :
    (v - m).getLsbD 7 = decide (128 ≤ ((v.toNat : Int) - m.toNat) % 256) := by
  have hm := m.isLt
  rw [getLsbD_seven, BitVec.toNat_sub, decide_eq_decide]
  omega

/-- A masked byte is 0 where no bit is set in both (R190). -/
theorem and_eq_zero_iff (a m : Byte) :
    a &&& m = 0 ↔ ∀ k : Nat, k < 8 → (a.getLsbD k && m.getLsbD k) = false := by
  refine ⟨fun h k _ => ?_, fun h => BitVec.eq_of_getLsbD_eq fun k hk => ?_⟩
  · rw [← BitVec.getLsbD_and, h, BitVec.ofNat_eq_ofNat, BitVec.getLsbD_zero]
  · rw [BitVec.getLsbD_and, h k hk, BitVec.ofNat_eq_ofNat, BitVec.getLsbD_zero]

/-- SBC adds the complement (R182), which is `-1 - m` modulo 256. -/
theorem toNat_complement (m : Byte) : ((~~~m).toNat : Int) = 255 - m.toNat := by
  have hm := m.isLt
  rw [BitVec.toNat_not]
  omega

theorem toInt_complement (m : Byte) : (~~~m).toInt = -1 - m.toInt := by
  have nat := toNat_complement m
  rw [BitVec.toInt_eq_toNat_cond, BitVec.toInt_eq_toNat_cond]
  split <;> split <;> omega

theorem natCast_bit (b : Bool) : ((bit b : Nat) : Int) = if b then 1 else 0 := by cases b <;> rfl

/-! ## The processor after an operation -/

/-- Writing `P` writes the flags and leaves the registers (R26). -/
theorem setP_cpu (p : Byte) (s : State) :
    (s.setP p).cpu =
      { s.cpu with
        c := getFlag p .c, z := getFlag p .z, i := getFlag p .i, d := getFlag p .d
        b := getFlag p .b, u := getFlag p .u, v := getFlag p .v, n := getFlag p .n } := rfl

/-- The processor after ADC or SBC: the result in `A`, the four flags (R181). -/
def Cpu.withSum (p : Cpu) (r : Byte) (carry overflow : Bool) : Cpu :=
  ({ p with a := r, c := carry, v := overflow } : Cpu).setZN r

theorem setAP_cpu_eq_withSum (r : Byte) (carry overflow : Bool) (s : State) :
    (setAP (r, setZN r (setFlag (setFlag s.p .c carry) .v overflow)) s).cpu = s.cpu.withSum r carry overflow := by
  simp [setAP, State.cpu_eq_flags, Cpu.withSum, Cpu.setZN]

/-- ADC's effect on integers (R181). -/
theorem addA_cpu (m : Byte) (s : State) :
    (addA m s).cpu =
      (let sum : Nat := s.a.toNat + m.toNat + (if s.cpu.c then 1 else 0)
       let signed : Int := s.a.toInt + m.toInt + (if s.cpu.c then 1 else 0)
       s.cpu.withSum (BitVec.ofNat 8 sum) (decide (255 < sum)) (decide (signed < -128 ∨ 127 < signed))) := by
  have overflow := overflow_eq s.a m s.cpu.c
  rw [natCast_bit] at overflow
  exact (setAP_cpu_eq_withSum _ _ _ s).trans (congrArg (s.cpu.withSum _ _) overflow)

/-- SBC's effect on integers (R182): the sum with the complement is the difference plus 256. -/
theorem subA_cpu (m : Byte) (s : State) :
    (subA m s).cpu =
      (let diff : Int := s.a.toNat - m.toNat - (if s.cpu.c then 0 else 1)
       let signed : Int := s.a.toInt - m.toInt - (if s.cpu.c then 0 else 1)
       s.cpu.withSum (BitVec.ofInt 8 diff) (decide (0 ≤ diff)) (decide (signed < -128 ∨ 127 < signed))) := by
  have complement := toNat_complement m
  have sum : ((s.a.toNat + (~~~m).toNat + (if s.cpu.c then 1 else 0) : Nat) : Int) =
      s.a.toNat - m.toNat - (if s.cpu.c then 0 else 1) + 256 := by
    split <;> omega
  have signed : s.a.toInt + (~~~m).toInt + (if s.cpu.c then 1 else 0) = s.a.toInt - m.toInt - (if s.cpu.c then 0 else 1) := by
    rw [toInt_complement]
    split <;> omega
  calc (subA m s).cpu = (addA (~~~m) s).cpu := rfl
    _ = _ := addA_cpu (~~~m) s
    _ = _ := ?_
  dsimp only
  congr 1
  · rw [← BitVec.ofInt_natCast, sum, BitVec.ofInt_add]
    exact BitVec.add_zero _
  · rw [decide_eq_decide]
    omega
  · rw [signed]

/-- A comparison's flags, on integers (R187). -/
theorem setP_compareOp_cpu (v m : Byte) (s : State) :
    (s.setP (compareOp v m s.p)).cpu =
      { s.cpu with
        c := decide (m.toNat ≤ v.toNat), z := decide (v = m)
        n := decide (128 ≤ ((v.toNat : Int) - m.toNat) % 256) } := by
  rw [← getLsbD_seven_sub]
  simp [State.cpu_eq_flags, compareOp, beq_eq_decide]

/-- The bit test's flags (R190). -/
theorem testA_cpu (m : Byte) (s : State) :
    (testA m s).cpu =
      { s.cpu with
        z := decide (∀ k : Nat, k < 8 → (s.a.getLsbD k && m.getLsbD k) = false)
        n := m.getLsbD 7, v := m.getLsbD 6 } := by
  simp only [← and_eq_zero_iff]
  simp [testA, State.cpu_eq_flags, bitOp, beq_eq_decide]

/-! ## Read-modify-writes on memory (R84) -/

section
variable {i : Instr} {s : State} {op : Byte → Byte → Byte × Byte}

theorem ModifyOp.exec_eq (h : ModifyOp i.mnemonic op) : exec i s = modifyBy i s op := by
  rw [Machine.exec_eq, execByMnemonic]
  generalize i.mnemonic = n at h
  cases h <;> rfl

theorem modifyBy_memory (hm : i.mode ≠ .accumulator) :
    modifyBy i s op =
      advance (rowFor i).length (rowFor i).cycles
        ((busWrite (eaOf i s) (op (sourceOf i s).1 s.p).1 (sourceOf i s).2).setP (op (sourceOf i s).1 s.p).2) := by
  unfold modifyBy
  split
  · contradiction
  · simp only [sourceOf_p]

/-- No read-modify-write pays a page penalty. -/
theorem ModifyOp.penalty {n : Mnemonic} (h : ModifyOp n op) : ∀ r ∈ rowsOf n, r.penalty = false := by
  cases h <;> decide

/-- A read-modify-write on memory completes with what its one write leaves and the processor its operation makes. -/
theorem ModifyOp.completes_memory {v p : Byte} (h : ModifyOp i.mnemonic op) (hm : i.mode ≠ .accumulator)
    (result : op (sourceOf i s).1 s.p = (v, p)) :
    ∃ r : Row, HasRow i r ∧ Completes i s (busWrite (eaOf i s) v (sourceOf i s).2)
      ((s.setP p).cpu.next i r s (busWrite (eaOf i s) v (sourceOf i s).2)) := by
  have cpu : ((busWrite (eaOf i s) v (sourceOf i s).2).setP p).cpu = (s.setP p).cpu := by
    rw [setP_cpu, busWrite_cpu, sourceOf_cpu, setP_cpu]
  refine completes_of_advance ?_ cpu rfl rfl
  rw [penaltyOf_eq_zero h.penalty, h.exec_eq, modifyBy_memory hm, result]
  rfl

end

/-! ## The statements of arithmetic and logic -/

/-- Settles O23: ADC is a read instruction whose effect is the sum on integers. -/
theorem addWithCarry : Obligations.AddWithCarry := by
  intro i s hm
  have effect : ReadEffect i.mnemonic addA := hm ▸ .adc
  exact effect.completes (by rw [addA_cpu, sourceOf_cpu, sourceOf_a, Cpu.withSum]) rfl

/-- Settles O24: SBC is a read instruction whose effect is the difference on integers. -/
theorem subtractWithBorrow : Obligations.SubtractWithBorrow := by
  intro i s hm
  have effect : ReadEffect i.mnemonic subA := hm ▸ .sbc
  exact effect.completes (by rw [subA_cpu, sourceOf_cpu, sourceOf_a, Cpu.withSum]) rfl

/-- Settles O25: each operation is the byte with those bits, loaded into `A`. -/
theorem bitwiseLogic : Obligations.BitwiseLogic := by
  intro i s v m h
  rcases h with ⟨hm, bits⟩ | ⟨hm, bits⟩ | ⟨hm, bits⟩
  · have effect : ReadEffect i.mnemonic andA := hm ▸ .and
    have value : v = s.a &&& m.1 := BitVec.eq_of_getLsbD_eq fun k _ => by rw [bits, BitVec.getLsbD_and]
    exact effect.completes (by rw [andA, loadA_cpu, sourceOf_cpu, sourceOf_a, value]) rfl
  · have effect : ReadEffect i.mnemonic orA := hm ▸ .ora
    have value : v = s.a ||| m.1 := BitVec.eq_of_getLsbD_eq fun k _ => by rw [bits, BitVec.getLsbD_or]
    exact effect.completes (by rw [orA, loadA_cpu, sourceOf_cpu, sourceOf_a, value]) rfl
  · have effect : ReadEffect i.mnemonic eorA := hm ▸ .eor
    have value : v = s.a ^^^ m.1 := BitVec.eq_of_getLsbD_eq fun k _ => by rw [bits, BitVec.getLsbD_xor]
    exact effect.completes (by rw [eorA, loadA_cpu, sourceOf_cpu, sourceOf_a, value]) rfl

/-- Settles O26: each compare and the bit test are read instructions whose effects write flags alone. -/
theorem comparesAndBitTest : Obligations.ComparesAndBitTest := by
  intro i s
  refine ⟨fun v h => ?_, fun hm => ?_⟩
  · rcases h with ⟨hm, rfl⟩ | ⟨hm, rfl⟩ | ⟨hm, rfl⟩
    · have effect : ReadEffect i.mnemonic compareA := hm ▸ .cmp
      exact effect.completes (by rw [compareA, setP_compareOp_cpu, sourceOf_cpu, sourceOf_a]) rfl
    · have effect : ReadEffect i.mnemonic compareX := hm ▸ .cpx
      exact effect.completes (by rw [compareX, setP_compareOp_cpu, sourceOf_cpu, sourceOf_x]) rfl
    · have effect : ReadEffect i.mnemonic compareY := hm ▸ .cpy
      exact effect.completes (by rw [compareY, setP_compareOp_cpu, sourceOf_cpu, sourceOf_y]) rfl
  · have effect : ReadEffect i.mnemonic testA := hm ▸ .bit
    exact effect.completes (by rw [testA_cpu, sourceOf_cpu, sourceOf_a]) rfl

/-- Settles O27: INC and DEC are read-modify-writes on memory, the others one-byte instructions that load a register. -/
theorem incrementAndDecrement : Obligations.IncrementAndDecrement := by
  intro i s
  refine ⟨fun v h => ?_, fun v h => ?_, fun v h => ?_⟩
  · rw [← setP_setZN_cpu]
    rcases h with ⟨hm, value⟩ | ⟨hm, value⟩
    · obtain rfl := eq_add_one_of_toNat value
      have op : ModifyOp i.mnemonic incOp := hm ▸ .inc
      exact op.completes_memory (mt (mnemonic_of_accumulator i) (by rw [hm]; decide)) rfl
    · obtain rfl := eq_sub_one_of_toNat value
      have op : ModifyOp i.mnemonic decOp := hm ▸ .dec
      exact op.completes_memory (mt (mnemonic_of_accumulator i) (by rw [hm]; decide)) rfl
  · rcases h with ⟨hm, value⟩ | ⟨hm, value⟩
    · obtain rfl := eq_add_one_of_toNat value
      have made : Implied s i.mnemonic (loadX (s.x + 1) s) := hm ▸ .inx
      exact made.completes (loadX_cpu _ _) rfl rfl
    · obtain rfl := eq_sub_one_of_toNat value
      have made : Implied s i.mnemonic (loadX (s.x - 1) s) := hm ▸ .dex
      exact made.completes (loadX_cpu _ _) rfl rfl
  · rcases h with ⟨hm, value⟩ | ⟨hm, value⟩
    · obtain rfl := eq_add_one_of_toNat value
      have made : Implied s i.mnemonic (loadY (s.y + 1) s) := hm ▸ .iny
      exact made.completes (loadY_cpu _ _) rfl rfl
    · obtain rfl := eq_sub_one_of_toNat value
      have made : Implied s i.mnemonic (loadY (s.y - 1) s) := hm ▸ .dey
      exact made.completes (loadY_cpu _ _) rfl rfl

end Sys2Proof.Machine
end

section
/-! SUPPORT. The statement of the shifts and rotates (O28): each operation as a number, the processor after it, and how a
read-modify-write on the accumulator completes. -/

namespace Sys2Proof.Machine

/-! ## Shifts and rotates as numbers (R211 to R214) -/

theorem bit_lt_two (c : Bool) : bit c < 2 := by cases c <;> decide

theorem toNat_shiftLeft_one (m : Byte) : (m <<< 1).toNat = (2 * m.toNat) % 256 := by
  rw [BitVec.toNat_shiftLeft, Nat.shiftLeft_eq, Nat.mul_comm, Nat.pow_one]

theorem toNat_shiftRight_one (m : Byte) : (m >>> 1).toNat = m.toNat / 2 := BitVec.toNat_ushiftRight m 1

/-- The old carry enters the bit that the left shift clears (R213). -/
theorem toNat_shiftLeft_one_or_bit (m : Byte) (c : Bool) :
    (m <<< 1 ||| BitVec.ofNat 8 (bit c)).toNat = (2 * m.toNat) % 256 + bit c := by
  have carry := bit_lt_two c
  calc (m <<< 1 ||| BitVec.ofNat 8 (bit c)).toNat = 2 ^ 1 * (m.toNat % 128) ||| bit c := by
        rw [BitVec.toNat_or, toNat_shiftLeft_one, BitVec.toNat_ofNat, Nat.mod_eq_of_lt (by omega : bit c < 2 ^ 8)]
        congr 1
        omega
    _ = 2 ^ 1 * (m.toNat % 128) + bit c := (Nat.two_pow_add_eq_or_of_lt carry _).symm
    _ = (2 * m.toNat) % 256 + bit c := by omega

/-- The old carry enters the bit that the right shift clears (R214). -/
theorem toNat_shiftRight_one_or_bit (m : Byte) (c : Bool) :
    (m >>> 1 ||| BitVec.ofNat 8 (bit c) <<< 7).toNat = m.toNat / 2 + 128 * bit c := by
  have carry := bit_lt_two c
  have half : m.toNat / 2 < 2 ^ 7 := Nat.div_lt_of_lt_mul m.isLt
  calc (m >>> 1 ||| BitVec.ofNat 8 (bit c) <<< 7).toNat = 2 ^ 7 * bit c ||| m.toNat / 2 := by
        rw [BitVec.or_comm, BitVec.toNat_or, toNat_shiftRight_one, BitVec.toNat_shiftLeft, BitVec.toNat_ofNat, Nat.shiftLeft_eq]
        congr 1
        omega
    _ = 2 ^ 7 * bit c + m.toNat / 2 := (Nat.two_pow_add_eq_or_of_lt half _).symm
    _ = m.toNat / 2 + 128 * bit c := Nat.add_comm _ _

/-! ## What a shift or rotate computes -/

/-- The result of a shift or rotate and `P` with the bit shifted out in `C` (R211 to R214). -/
def shifted (v : Byte) (out : Bool) (p : Byte) : Byte × Byte := (v, setZN v (setFlag p .c out))

section
variable {v m : Byte} (p : Byte)

theorem aslOp_eq_shifted (h : v.toNat = (2 * m.toNat) % 256) : aslOp m p = shifted v (m.getLsbD 7) p := by
  obtain rfl : v = m <<< 1 := BitVec.eq_of_toNat_eq (h.trans (toNat_shiftLeft_one m).symm)
  rfl

theorem lsrOp_eq_shifted (h : v.toNat = m.toNat / 2) : lsrOp m p = shifted v (m.getLsbD 0) p := by
  obtain rfl : v = m >>> 1 := BitVec.eq_of_toNat_eq (h.trans (toNat_shiftRight_one m).symm)
  rfl

theorem rolOp_eq_shifted (h : v.toNat = (2 * m.toNat) % 256 + bit (getFlag p .c)) :
    rolOp m p = shifted v (m.getLsbD 7) p := by
  obtain rfl : v = m <<< 1 ||| BitVec.ofNat 8 (bit (getFlag p .c)) :=
    BitVec.eq_of_toNat_eq (h.trans (toNat_shiftLeft_one_or_bit m _).symm)
  rfl

theorem rorOp_eq_shifted (h : v.toNat = m.toNat / 2 + 128 * bit (getFlag p .c)) :
    rorOp m p = shifted v (m.getLsbD 0) p := by
  obtain rfl : v = m >>> 1 ||| BitVec.ofNat 8 (bit (getFlag p .c)) <<< 7 :=
    BitVec.eq_of_toNat_eq (h.trans (toNat_shiftRight_one_or_bit m _).symm)
  rfl

end

/-- The flags after a shift or rotate: `C` the bit shifted out, `Z` and `N` of the result (R211 to R214). -/
theorem setP_shifted_cpu (v : Byte) (out : Bool) (s : State) :
    (s.setP (shifted v out s.p).2).cpu = ({ s.cpu with c := out } : Cpu).setZN v := by
  simp [shifted, State.cpu_eq_flags, Cpu.setZN]

theorem setAP_shifted_cpu (v : Byte) (out : Bool) (s : State) :
    (setAP (shifted v out s.p) s).cpu = ({ s.cpu with a := v, c := out } : Cpu).setZN v :=
  setP_shifted_cpu v out (s.setA v)

/-! ## Read-modify-writes on the accumulator (R135, R210) -/

section
variable {i : Instr} {s : State} {op : Byte → Byte → Byte × Byte}

/-- In accumulator mode the operand is `A`, read without a memory access (R135). -/
theorem sourceOf_accumulator (hm : i.mode = .accumulator) : sourceOf i s = (s.a, s) := by
  rw [sourceOf, hm]

theorem modifyBy_accumulator (hm : i.mode = .accumulator) :
    modifyBy i s op = advance (rowFor i).length (rowFor i).cycles (setAP (op s.a s.p) s) := by
  rw [modifyBy, hm]

/-- A read-modify-write on the accumulator accesses no memory and completes with the pair its operation makes. -/
theorem ModifyOp.completes_accumulator (h : ModifyOp i.mnemonic op) (hm : i.mode = .accumulator) {r : Byte × Byte}
    (result : op s.a s.p = r) :
    ∃ row : Row, HasRow i row ∧ Completes i s s ((setAP r s).cpu.next i row s s) := by
  subst result
  refine completes_of_advance ?_ rfl rfl rfl
  rw [penaltyOf_eq_zero h.penalty, h.exec_eq, modifyBy_accumulator hm]
  rfl

end

/-! ## The statement of the shifts and rotates -/

/-- The two forms of a shift or rotate whose result and bit shifted out are known: on the accumulator and on memory (R210). -/
theorem ModifyOp.completes_shifted {i : Instr} {s : State} {op : Byte → Byte → Byte × Byte} {v : Byte} {out : Bool}
    (h : ModifyOp i.mnemonic op) (result : op (sourceOf i s).1 s.p = shifted v out s.p) :
    ∃ r : Row, HasRow i r ∧
      (i.mode = .accumulator →
        Completes i s s ((({ s.cpu with a := v, c := out } : Cpu).setZN v).next i r s s)) ∧
      (i.mode ≠ .accumulator →
        (let mid := busWrite (eaOf i s) v (sourceOf i s).2
         Completes i s mid ((({ s.cpu with c := out } : Cpu).setZN v).next i r s mid))) := by
  rw [← setAP_shifted_cpu, ← setP_shifted_cpu]
  by_cases hm : i.mode = .accumulator
  · rw [sourceOf_accumulator hm] at result
    obtain ⟨r, row, done⟩ := h.completes_accumulator hm result
    exact ⟨r, row, fun _ => done, fun other => absurd hm other⟩
  · obtain ⟨r, row, done⟩ := h.completes_memory hm result
    exact ⟨r, row, fun other => absurd other hm, fun _ => done⟩

/-- Settles O28: each shift and rotate is a read-modify-write whose operation has this result and this bit shifted out. -/
theorem shiftsAndRotates : Obligations.ShiftsAndRotates := by
  intro i s v out m carry h
  rcases h with ⟨hm, value, rfl⟩ | ⟨hm, value, rfl⟩ | ⟨hm, value, rfl⟩ | ⟨hm, value, rfl⟩
  · have op : ModifyOp i.mnemonic aslOp := hm ▸ .asl
    exact op.completes_shifted (aslOp_eq_shifted s.p value)
  · have op : ModifyOp i.mnemonic lsrOp := hm ▸ .lsr
    exact op.completes_shifted (lsrOp_eq_shifted s.p value)
  · have op : ModifyOp i.mnemonic rolOp := hm ▸ .rol
    exact op.completes_shifted (rolOp_eq_shifted s.p value)
  · have op : ModifyOp i.mnemonic rorOp := hm ▸ .ror
    exact op.completes_shifted (rorOp_eq_shifted s.p value)

end Sys2Proof.Machine
end

section
/-! SUPPORT. The statements of control flow (O18, O19, O29 to O31): how a jump, a branch and BRK complete, and what is pulled after
it was pushed. -/

namespace Sys2Proof.Machine

/-! ## Completion (R131) -/

section
variable {i : Instr} {s w mid : State}

/-- An instruction that has written `PC` itself completes with the processor of the state it has made. -/
theorem completes_of_complete {cycles : Nat} (hx : exec i s = complete cycles w) (outside : w.outside = mid.outside) :
    Completes i s mid { w.cpu with cost := cycles + w.dmaStall } :=
  ⟨w.setStepCycles (cycles + w.dmaStall), hx, rfl, outside⟩

theorem Jump.exec_eq (h : Jump i s i.mnemonic w) : exec i s = complete (rowFor i).cycles w := by
  rw [Machine.exec_eq, execByMnemonic]
  generalize i.mnemonic = n at h
  cases h <;> rfl

/-- A jump completes with the processor of the state it makes. -/
theorem Jump.completes (h : Jump i s i.mnemonic w) (outside : w.outside = mid.outside) :
    Completes i s mid { w.cpu with cost := (rowFor i).cycles + s.dmaStall } := by
  rw [← h.dmaStall]
  exact completes_of_complete h.exec_eq outside

end

/-! ## Jumps, calls and returns (R221 to R223, R225) -/

theorem setPC_cpu (pc : Word) (s : State) : (s.setPC pc).cpu = { s.cpu with pc := pc } := rfl

/-- A 16-bit push moves the stack pointer and leaves the rest of the processor (R13). -/
theorem push16_cpu (w : Word) (s : State) : (push16 w s).cpu = { s.cpu with sp := s.sp - 2 } := by rw [push16_eq]; rfl

/-- JMP has two forms (R221). -/
theorem mode_of_jmp {i : Instr} (hm : i.mnemonic = .jmp) : i.mode = .absolute ∨ i.mode = .indirect := by
  have forms : ∀ r ∈ rowsOf .jmp, r.mode = .absolute ∨ r.mode = .indirect := by decide
  obtain ⟨listed, -, mode, -⟩ := hasRow_rowFor i
  rw [mode]
  exact forms (rowFor i) (hm ▸ listed)

theorem jmp_completes {i : Instr} (hm : i.mnemonic = .jmp) (s : State) :
    Completes i s (operandOf i s).2 { s.cpu with pc := eaOf i s, cost := (rowFor i).cycles + s.dmaStall } := by
  have jump : Jump i s i.mnemonic ((operandOf i s).2.setPC (eaOf i s)) := hm ▸ .jmp
  have done := jump.completes (mid := (operandOf i s).2) rfl
  rwa [setPC_cpu, operandOf_cpu] at done

theorem jsr_completes (target : Word) (s : State) :
    Completes (.jsrAbs target) s (push16 (s.pc + 2) s)
      { s.cpu with sp := s.sp - 2, pc := target, cost := 6 + s.dmaStall } := by
  have done := (Jump.jsr (i := .jsrAbs target) (s := s)).completes (mid := push16 (s.pc + 2) s) rfl
  have operand : operandWord (.jsrAbs target) = target := word_of_bytes target
  rw [operand, setPC_cpu, push16_cpu] at done
  exact done

/-- RTS goes to the address after the word it pulls (R223). -/
theorem rts_completes {s : State} {w : Word} {sp : Byte} (pulled : pop16 s = (w, s.setSP sp)) :
    Completes .rts s s { s.cpu with sp := sp, pc := w + 1, cost := 6 + s.dmaStall } := by
  have done := (Jump.rts (i := .rts) (s := s)).completes (mid := s) (by rw [pulled]; rfl)
  rw [pulled] at done
  exact done

/-- A loaded status writes every flag, `B` as clear and `U` as set (R28). -/
theorem setP_loadedStatus_cpu (m : Byte) (s : State) :
    (s.setP (loadedStatus m)).cpu =
      { s.cpu with
        c := getFlag m .c, z := getFlag m .z, i := getFlag m .i, d := getFlag m .d
        b := false, u := true, v := getFlag m .v, n := getFlag m .n } := by
  simp [setP_cpu]

theorem rti_completes (s : State) :
    Completes .rti s s
      { (s.setP (loadedStatus (s.ram.read (256 + (s.sp + 1).toNat)))).cpu with
        sp := s.sp + 3
        pc := word (s.ram.read (256 + (s.sp + 3).toNat)) (s.ram.read (256 + (s.sp + 2).toNat))
        cost := 6 + s.dmaStall } := by
  have done := (Jump.rti (i := .rti) (s := s)).completes (mid := s) (by rw [returnFromInterrupt_eq]; rfl)
  rw [returnFromInterrupt_eq] at done
  exact done

/-! ## BRK (R226) -/

theorem execBrk_halt {s : State} (h : s.params.brkMode = .halt) :
    execBrk s = .next (((s.setHalted true).setPC (s.pc + 1)).setStepCycles 0) := by
  rw [execBrk, h]

theorem execBrk_interrupt {s : State} (h : s.params.brkMode = .interrupt) :
    execBrk s = complete 7 (enterHandler (s.pc + 2) (pushedByInstruction s.p) Config.vecIrq s) := by
  rw [execBrk, h]
  rfl

/-- Entering a handler at the IRQ vector moves the stack pointer and `PC`, sets `I`, and writes no other flag (R407). -/
theorem enterHandler_irq_cpu (ret : Word) (status : Byte) (s : State) :
    (enterHandler ret status Config.vecIrq s).cpu =
      { s.cpu with sp := s.sp - 3, i := true, pc := word (s.memByte 0xFFFF) (s.memByte 0xFFFE) } := by
  rw [enterHandler_eq ret status _ s rfl rfl]
  simp [State.cpu_eq_flags, Config.vecIrq]

/-- Around the processor an entry is its pushes (R407). -/
theorem enterHandler_irq_outside (ret : Word) (status : Byte) (s : State) :
    (enterHandler ret status Config.vecIrq s).outside = (push status (push16 ret s)).outside := by
  rw [enterHandler_eq ret status _ s rfl rfl, push_eq, push16_eq]
  rfl

/-- BRK in interrupt mode enters the handler at the IRQ vector (R226, R407). -/
theorem brk_interrupt_completes {s : State} (h : s.params.brkMode = .interrupt) :
    Completes .brk s (push (pushedByInstruction s.p) (push16 (s.pc + 2) s))
      { s.cpu with
        sp := s.sp - 3, i := true, pc := word (s.memByte 0xFFFF) (s.memByte 0xFFFE), cost := 7 + s.dmaStall } := by
  have done := completes_of_complete (i := .brk) (execBrk_interrupt h) (enterHandler_irq_outside _ _ s)
  rwa [enterHandler_irq_cpu, enterHandler_dmaStall] at done

/-! ## Branches (R224, R228 to R235) -/

/-- Each instruction in relative mode is a branch, and costs 2 cycles when it is not taken. -/
theorem branch_of_relative_row (m : Mnemonic) :
    ∀ r ∈ rowsOf m, r.mode = .relative → m ∈ [.bcc, .bcs, .beq, .bne, .bmi, .bpl, .bvc, .bvs] ∧ r.cycles = 2 := by
  cases m <;> decide

theorem exec_branch {i : Instr} (h : i.mnemonic ∈ [.bcc, .bcs, .beq, .bne, .bmi, .bpl, .bvc, .bvs]) (s : State) :
    exec i s = branch (branchTaken i.mnemonic s.cpu) (operandByte i) s := by
  rw [exec_eq, execByMnemonic]
  generalize i.mnemonic = n at h
  simp only [List.mem_cons, List.not_mem_nil, or_false] at h
  rcases h with rfl | rfl | rfl | rfl | rfl | rfl | rfl | rfl <;> rfl

/-- The target is the next address plus the signed offset, modulo 65536 (R146). -/
theorem branchTarget_eq_ofInt (pc : Word) (off : Byte) :
    branchTarget pc off = BitVec.ofInt 16 ((pc + 2).toNat + off.toInt) := by
  rw [BitVec.ofInt_add, BitVec.ofInt_natCast, BitVec.ofNat_toNat, BitVec.setWidth_eq]
  rfl

/-- A taken branch pays one cycle, and one more across a page (R224). -/
theorem takenCycles_eq (a b : Word) :
    (if pageCross a b then 4 else 3) = 2 + 1 + (if a.toNat / 256 = b.toNat / 256 then 0 else 1) := by
  simp only [pageCross_iff, ne_eq, ite_not]
  split <;> rfl

theorem branch_completes {i : Instr} {s : State} {cond : Bool} {off : Byte} (h : exec i s = branch cond off s) :
    Completes i s s
      (if cond then
        { s.cpu with
          pc := branchTarget s.pc off
          cost := (if pageCross (s.pc + 2) (branchTarget s.pc off) then 4 else 3) + s.dmaStall }
       else { s.cpu with pc := s.pc + 2, cost := 2 + s.dmaStall }) := by
  refine ⟨_, h.trans ((branch_next_iff cond off s _).2 rfl), ?_, ?_⟩
  · cases cond <;> rfl
  · cases cond <;> rfl

/-! ## What is pulled after it was pushed (R13, R21) -/

/-- A push stores its byte where the stack pointer was, and leaves the rest of the stack page. -/
theorem push_ram_read (v : Byte) (s : State) (q : Byte) :
    (push v s).ram.read (256 + q.toNat) = if q = s.sp then v else s.ram.read (256 + q.toNat) := by
  simp only [push_eq, State.setSP_ram, State.setRam_ram, Memory.read_write, Nat.add_left_cancel_iff, BitVec.toNat_inj]

theorem push_sp (v : Byte) (s : State) : (push v s).sp = s.sp - 1 := by rw [push_eq]; rfl

theorem push16_sp (w : Word) (s : State) : (push16 w s).sp = s.sp - 2 := congrArg Cpu.sp (push16_cpu w s)

theorem push16_dmaStall (w : Word) (s : State) : (push16 w s).dmaStall = s.dmaStall := by rw [push16_eq]; rfl

/-- The high byte is pushed first, the low byte below it (R13). -/
theorem push16_ram_read_lo (w : Word) (s : State) : (push16 w s).ram.read (256 + (s.sp - 1).toNat) = loByte w := by
  rw [push16, push_ram_read, if_pos (push_sp (hiByte w) s).symm]

theorem push16_ram_read_hi (w : Word) (s : State) : (push16 w s).ram.read (256 + s.sp.toNat) = hiByte w := by
  rw [push16, push_ram_read, push_sp, if_neg (by bv_omega), push_ram_read, if_pos rfl]

/-- A word is pulled as it was pushed, wherever the stack pointer wraps. -/
theorem pop16_of_push16 {s t : State} {w : Word} (ram : t.ram = (push16 w s).ram) (sp : t.sp = s.sp - 2) :
    pop16 t = (w, t.setSP s.sp) := by
  have lo : s.sp - 2 + 1 = s.sp - 1 := by bv_omega
  have hi : s.sp - 2 + 2 = s.sp := by bv_omega
  rw [pop16_eq, ram, sp, lo, hi, push16_ram_read_lo, push16_ram_read_hi, word_of_bytes]

/-- A return from a handler pulls what the entry pushed, wherever the stack pointer wraps (R421). -/
theorem returnFromInterrupt_of_push {s t : State} {status : Byte} {ret : Word}
    (ram : t.ram = (push status (push16 ret s)).ram) (sp : t.sp = s.sp - 3) :
    returnFromInterrupt t = { t with sp := s.sp, p := loadedStatus status, pc := ret } := by
  have st : s.sp - 3 + 1 = s.sp - 2 := by bv_omega
  have lo : s.sp - 3 + 2 = s.sp - 1 := by bv_omega
  have hi : s.sp - 3 + 3 = s.sp := by bv_omega
  rw [returnFromInterrupt_eq, ram, sp, st, lo, hi]
  have lo_apart : s.sp - 1 ≠ s.sp - 2 := by bv_omega
  have hi_apart : s.sp ≠ s.sp - 2 := by bv_omega
  simp only [push_ram_read, push16_sp, lo_apart, hi_apart, if_true, if_false, push16_ram_read_lo, push16_ram_read_hi,
    word_of_bytes]

/-- A loaded copy of a status with `B` clear and `U` set is the status, whatever `B` and `U` the copy has (R28). -/
theorem loadedStatus_of_copy {s : State} {m : Byte} (ok : s.StatusOk)
    (copy : ∀ f : Flag, f ≠ .b → f ≠ .u → getFlag m f = getFlag s.p f) : loadedStatus m = s.p := by
  obtain ⟨u_set, b_clear⟩ := ok
  apply status_ext
  intro f
  rw [getFlag_loadedStatus]
  split
  · next h => rw [h, b_clear]
  · next hb =>
    split
    · next h => rw [h, u_set]
    · next hu => exact copy f hb hu

theorem loadedStatus_pushedByInterrupt {s : State} (ok : s.StatusOk) : loadedStatus (pushedByInterrupt s.p) = s.p :=
  loadedStatus_of_copy ok fun f hb hu => by rw [getFlag_pushedByInterrupt, if_neg hb, if_neg hu]

theorem loadedStatus_pushedByInstruction {s : State} (ok : s.StatusOk) : loadedStatus (pushedByInstruction s.p) = s.p :=
  loadedStatus_of_copy ok fun f hb hu => by rw [getFlag_pushedByInstruction, if_neg (not_or.2 ⟨hb, hu⟩)]

/-! ## The statements of control flow -/

/-- Settles O18: RTI pulls what the entry pushed, and the pushed copy differs from the status in `B` and `U` alone. -/
theorem rtiUndoesTheEntry : Obligations.RtiUndoesTheEntry := by
  refine ⟨fun s k ok => ?_, fun s ok mode => ?_⟩
  · have ram : (interruptEntry k s).ram = (push (pushedByInterrupt s.p) (push16 s.pc s)).ram := by
      rw [interruptEntry_eq, push_eq, push16_eq]
      rfl
    have sp : (interruptEntry k s).sp = s.sp - 3 := by rw [interruptEntry_eq]
    refine ⟨_, rfl, ?_⟩
    rw [returnFromInterrupt_of_push ram sp, loadedStatus_pushedByInterrupt ok, interruptEntry_eq]
    exact ⟨rfl, rfl, rfl, rfl, rfl, rfl⟩
  · obtain ⟨t, brk, cpu, outside⟩ := brk_interrupt_completes mode
    refine ⟨t, _, brk, rfl, ?_⟩
    rw [returnFromInterrupt_of_push (congrArg Outside.ram outside) (congrArg Cpu.sp cpu),
      loadedStatus_pushedByInstruction ok]
    exact ⟨rfl, rfl, rfl, congrArg Cpu.a cpu, congrArg Cpu.x cpu, congrArg Cpu.y cpu⟩

/-- Settles O19: RTS pulls the word that JSR pushed, and JSR stores its two bytes alone. -/
theorem rtsReturnsAfterJsr : Obligations.RtsReturnsAfterJsr := by
  intro s target
  obtain ⟨t, jsr, jsr_cpu, jsr_outside⟩ := jsr_completes target s
  have pulled : pop16 t = (s.pc + 2, t.setSP s.sp) :=
    pop16_of_push16 (congrArg Outside.ram jsr_outside) (congrArg Cpu.sp jsr_cpu)
  obtain ⟨u, rts, rts_cpu, -⟩ := rts_completes pulled
  refine ⟨t, u, jsr, congrArg Cpu.pc jsr_cpu, rts, ?_, fun a h0 h1 => ?_⟩
  · have after : s.pc + 2 + 1 = s.pc + 3 := BitVec.add_assoc _ _ _
    have stall : t.dmaStall = s.dmaStall := (congrArg Outside.dmaStall jsr_outside).trans (push16_dmaStall _ s)
    rw [rts_cpu, jsr_cpu, after, stall]
    rfl
  · have rts_stores : ∀ e ∈ storesTo .rts t, ¬ SameRamByte e a := List.forall_mem_nil _
    have jsr_stores : ∀ e ∈ storesTo (.jsrAbs target) s, ¬ SameRamByte e a :=
      List.forall_mem_cons.2 ⟨h0, List.forall_mem_singleton.2 h1⟩
    rw [exec_memByte rts rts_stores, exec_memByte jsr jsr_stores]

/-- Settles O29: each jump completes with the state it makes. -/
theorem jumpsCallsAndReturns : Obligations.JumpsCallsAndReturns := by
  refine ⟨fun i s hm => ⟨rowFor i, hasRow_rowFor i, mode_of_jmp hm, fun mode => ?_, jmp_completes hm s⟩,
    fun target s => ⟨rowFor (.jsrAbs target), hasRow_rowFor _, ?_⟩,
    fun s => ⟨rowFor .rts, hasRow_rowFor _, rts_completes (pop16_eq s)⟩,
    fun s => ⟨rowFor .rti, hasRow_rowFor _, ?_⟩⟩
  · rw [eaOf, operandOf_absolute mode]
    rfl
  · have done := jsr_completes target s
    rw [push16_eq] at done
    exact done
  · have done := rti_completes s
    rw [setP_loadedStatus_cpu] at done
    exact done

/-- Settles O30: halt mode is one update of the state, interrupt mode enters the handler at the IRQ vector (R407). -/
theorem break_in_both_modes : Obligations.Break := by
  refine ⟨hasRow_rowFor .brk, fun s mode => ⟨_, execBrk_halt mode, rfl, rfl⟩, fun s mode => ?_⟩
  have done := brk_interrupt_completes mode
  rw [push_eq, push16_eq] at done
  exact done

/-- Settles O31: an instruction in relative mode is one of the eight, and each is `Branch` on its condition (R224). -/
theorem branches : Obligations.Branches := by
  intro i s relative
  obtain ⟨listed, opcode, mode, length⟩ := hasRow_rowFor i
  obtain ⟨branches, cycles⟩ := branch_of_relative_row i.mnemonic (rowFor i) listed (mode ▸ relative)
  refine ⟨⟨rowFor i, ⟨listed, opcode, mode, length⟩, cycles⟩, branches, ?_⟩
  have done := branch_completes (exec_branch branches s)
  rwa [takenCycles_eq, branchTarget_eq_ofInt] at done

end Sys2Proof.Machine
end

section
/-! SUPPORT. The statements of the stack and flag instructions (O32, O33): the processor after a push or a flag write, and how the
instructions that end with one complete. -/

namespace Sys2Proof.Machine

/-! ## The processor after an operation -/

/-- A push moves the stack pointer and leaves the rest of the processor (R13). -/
theorem push_cpu (v : Byte) (s : State) : (push v s).cpu = { s.cpu with sp := s.sp - 1 } := by rw [push_eq]; rfl

/-- Around the processor a push is its one store in the stack page (R13, R21). -/
theorem push_outside (v : Byte) (s : State) :
    (push v s).outside = (s.setRam (s.ram.write (256 + s.sp.toNat) v)).outside := by rw [push_eq]; rfl

/-- The processor with one flag written. -/
def Cpu.withFlag (p : Cpu) (v : Bool) : Flag → Cpu
  | .c => { p with c := v }
  | .z => { p with z := v }
  | .i => { p with i := v }
  | .d => { p with d := v }
  | .b => { p with b := v }
  | .u => { p with u := v }
  | .v => { p with v := v }
  | .n => { p with n := v }

@[simp] theorem Cpu.withFlag_pc (p : Cpu) (v : Bool) (f : Flag) : (p.withFlag v f).pc = p.pc := by cases f <;> rfl

/-- Writing a bit of `P` writes its flag and leaves every other (R26). -/
theorem setP_setFlag_cpu (f : Flag) (v : Bool) (s : State) : (s.setP (setFlag s.p f v)).cpu = s.cpu.withFlag v f := by
  cases f <;> simp [State.cpu_eq_flags, Cpu.withFlag]

/-! ## Completion (R250) -/

section
variable {i : Instr} {s : State}

/-- A one-byte instruction that pushes a byte completes with the byte stored where the stack pointer was. -/
theorem Implied.completes_push {v : Byte} (h : Implied s i.mnemonic (push v s)) :
    ∃ r : Row, HasRow i r ∧
      (let mid := s.setRam (s.ram.write (256 + s.sp.toNat) v)
       Completes i s mid (({ s.cpu with sp := s.sp - 1 } : Cpu).next i r s mid)) :=
  h.completes (push_cpu v s) rfl (push_outside v s)

/-- A one-byte instruction that writes a flag completes with that flag written and nothing else. -/
theorem Implied.completes_setFlag (f : Flag) (v : Bool) (h : Implied s i.mnemonic (s.setP (setFlag s.p f v))) :
    ∃ r : Row, HasRow i r ∧ Completes i s s ((s.cpu.withFlag v f).next i r s s) :=
  h.completes (setP_setFlag_cpu f v s) (Cpu.withFlag_pc _ v f) rfl

end

/-! ## The statements of the stack and flag instructions -/

/-- Settles O32: PHA and PHP end with a push, PLA loads the byte pulled and PLP loads the status it holds. -/
theorem stackInstructions : Obligations.StackInstructions := by
  refine fun s => ⟨Implied.completes_push .pha, Implied.completes_push .php, ?_, ?_⟩
  · have made : Implied s Instr.pla.mnemonic (loadA (pop s).1 (pop s).2) := .pla
    rw [pop_eq] at made
    exact made.completes (loadA_cpu _ _) rfl rfl
  · have made : Implied s Instr.plp.mnemonic ((pop s).2.setP (loadedStatus (pop s).1)) := .plp
    rw [pop_eq] at made
    exact made.completes (setP_loadedStatus_cpu _ _) rfl rfl

/-- Settles O33: each of the seven writes one bit of `P`, and NOP makes the state it began with. -/
theorem flagInstructionsAndNop : Obligations.FlagInstructionsAndNop := by
  intro i s after h
  rcases h with ⟨hm, rfl⟩ | ⟨hm, rfl⟩ | ⟨hm, rfl⟩ | ⟨hm, rfl⟩ | ⟨hm, rfl⟩ | ⟨hm, rfl⟩ | ⟨hm, rfl⟩ | ⟨hm, rfl⟩
  · exact Implied.completes_setFlag .c false (hm ▸ .clc)
  · exact Implied.completes_setFlag .c true (hm ▸ .sec)
  · exact Implied.completes_setFlag .i false (hm ▸ .cli)
  · exact Implied.completes_setFlag .i true (hm ▸ .sei)
  · exact Implied.completes_setFlag .d false (hm ▸ .cld)
  · exact Implied.completes_setFlag .d true (hm ▸ .sed)
  · exact Implied.completes_setFlag .v false (hm ▸ .clv)
  · have made : Implied s i.mnemonic s := hm ▸ .nop
    exact made.completes rfl rfl rfl

end Sys2Proof.Machine
end

section
/-! SUPPORT. The statements of the PPU registers (O46 to O50): the two index functions in closed form, the address register by its
bytes, the data port by its target, and what each write through the bus leaves alone. -/

namespace Sys2Proof.Machine

/-! ## The index functions of the data port -/

/-- Vertical mirroring keeps 11 bits of the address (R284). -/
theorem mirrorVram_vertical {a : BitVec 14} (h : 0x2000 ≤ a.toNat) : mirrorVram .vertical a = a.toNat % 0x800 := by
  simp only [mirrorVram, nametableOffset_eq a h]
  split <;> omega

/-- Horizontal mirroring folds each half of the nametables into one (R284). -/
theorem mirrorVram_horizontal {a : BitVec 14} (h : 0x2000 ≤ a.toNat) :
    mirrorVram .horizontal a = (if 0x800 ≤ a.toNat % 0x1000 then 0x400 else 0) + a.toNat % 0x400 := by
  simp only [mirrorVram, nametableOffset_eq a h]
  (repeat' split) <;> omega

/-- Either mirroring keeps the offset in the nametable (R284). -/
theorem mirrorVram_mod (m : Mirroring) {a : BitVec 14} (h : 0x2000 ≤ a.toNat) :
    mirrorVram m a % 0x400 = a.toNat % 0x400 := by
  cases m
  · rw [mirrorVram_horizontal h]; split <;> omega
  · rw [mirrorVram_vertical h]; omega

/-- The palette index is the low five bits, the four backdrop entries of the second half folded onto the first (R285). -/
theorem palIndex_eq (a : BitVec 14) :
    palIndex a =
      if a.toNat % 0x20 ∈ [0x10, 0x14, 0x18, 0x1C] then a.toNat % 0x20 - 0x10 else a.toNat % 0x20 := by
  have low : (a &&& 0x1F).toNat = a.toNat % 0x20 := Nat.and_two_pow_sub_one_eq_mod a.toNat 5
  simp only [palIndex, low, List.mem_cons, List.not_mem_nil, or_false]

/-! ## What an address selects (R288) -/

theorem vramTarget_chr {a : BitVec 14} (h : a.toNat ≤ 0x1FFF) : vramTarget a = .chr := if_pos h

theorem vramTarget_nametable {a : BitVec 14} (lo : 0x2000 ≤ a.toNat) (hi : a.toNat ≤ 0x3EFF) : vramTarget a = .nametable := by
  rw [vramTarget, if_neg (by omega), if_pos hi]

theorem vramTarget_palette {a : BitVec 14} (h : 0x3F00 ≤ a.toNat) : vramTarget a = .palette := by
  rw [vramTarget, if_neg (by omega), if_neg (by omega)]

theorem vramTarget_ne_palette {a : BitVec 14} (h : a.toNat ≤ 0x3EFF) : vramTarget a ≠ .palette := by
  rw [vramTarget, if_pos h]; split <;> decide

/-! ## The address register -/

namespace Ppu

/-- The first write of a pair replaces the high six bits (R283). -/
theorem addrWrite_first_toNat {u : Ppu} (hw : u.w = false) (v : Byte) :
    (u.addrWrite v).vramAddr.toNat = 256 * (v.toNat % 64) + u.vramAddr.toNat % 256 := by
  have high : ((v &&& 0x3F).setWidth 14 <<< 8).toNat = 2 ^ 8 * (v.toNat % 64) := by
    have six : (v &&& 0x3F).toNat = v.toNat % 64 := Nat.and_two_pow_sub_one_eq_mod v.toNat 6
    rw [BitVec.toNat_shiftLeft, BitVec.toNat_setWidth, six, Nat.shiftLeft_eq]
    omega
  have low : (u.vramAddr &&& 0x00FF).toNat = u.vramAddr.toNat % 256 := Nat.and_two_pow_sub_one_eq_mod u.vramAddr.toNat 8
  simp only [addrWrite, hw, Bool.false_eq_true, if_false]
  rw [BitVec.toNat_or, high, low, ← Nat.two_pow_add_eq_or_of_lt (Nat.mod_lt _ (by decide))]

/-- The second write of a pair replaces the low eight bits (R283). -/
theorem addrWrite_second_toNat {u : Ppu} (hw : u.w = true) (v : Byte) :
    (u.addrWrite v).vramAddr.toNat = 256 * (u.vramAddr.toNat / 256) + v.toNat := by
  have high : (u.vramAddr &&& 0x3F00).toNat = 2 ^ 8 * (u.vramAddr.toNat / 256) := by
    have quotient : (u.vramAddr.toNat &&& 0x3F00) / 2 ^ 8 = u.vramAddr.toNat / 2 ^ 8 % 2 ^ 6 := by
      rw [Nat.and_div_two_pow]; exact Nat.and_two_pow_sub_one_eq_mod _ 6
    have remainder : (u.vramAddr.toNat &&& 0x3F00) % 2 ^ 8 = 0 := by
      rw [Nat.and_mod_two_pow]; exact Nat.and_zero _
    have bound := u.vramAddr.isLt
    rw [BitVec.toNat_and]
    show u.vramAddr.toNat &&& 0x3F00 = _
    omega
  have low : (v.setWidth 14).toNat = v.toNat := BitVec.toNat_setWidth_of_le (by decide)
  simp only [addrWrite, hw, if_true]
  rw [BitVec.toNat_or, high, low, ← Nat.two_pow_add_eq_or_of_lt v.isLt]

theorem addrWrite_first {u : Ppu} (hw : u.w = false) (v : Byte) :
    u.addrWrite v = { u with vramAddr := (u.addrWrite v).vramAddr, w := true } := by
  simp only [addrWrite, hw, Bool.false_eq_true, if_false]

theorem addrWrite_second {u : Ppu} (hw : u.w = true) (v : Byte) :
    u.addrWrite v = { u with vramAddr := (u.addrWrite v).vramAddr, w := false } := by
  simp only [addrWrite, hw, if_true]

/-- A pair of writes from a clear toggle sets the whole address and nothing else (R283). -/
theorem addrWrite_pair {u : Ppu} (hw : u.w = false) (A : BitVec 14) :
    (u.addrWrite (BitVec.ofNat 8 (A.toNat / 256))).addrWrite (BitVec.ofNat 8 (A.toNat % 256)) = { u with vramAddr := A } := by
  have firstWrite := addrWrite_first hw (BitVec.ofNat 8 (A.toNat / 256))
  have toggled : (u.addrWrite (BitVec.ofNat 8 (A.toNat / 256))).w = true := by rw [firstWrite]
  have address : ((u.addrWrite (BitVec.ofNat 8 (A.toNat / 256))).addrWrite (BitVec.ofNat 8 (A.toNat % 256))).vramAddr = A := by
    apply BitVec.eq_of_toNat_eq
    rw [addrWrite_second_toNat toggled, addrWrite_first_toNat hw, BitVec.toNat_ofNat, BitVec.toNat_ofNat]
    have bound := A.isLt
    omega
  rw [addrWrite_second toggled, address, firstWrite, ← hw]

/-! ## The data port -/

/-- The step of the address as a number, modulo its 14 bits (R287). -/
theorem addrIncrement_eq (u : Ppu) :
    u.addrIncrement =
      { u with vramAddr := BitVec.ofNat 14 (u.vramAddr.toNat + (if u.ctrl.getLsbD 2 then 32 else 1)) } := by
  have sum : u.vramAddr + (if u.ctrl.getLsbD 2 then 32 else 1) =
      BitVec.ofNat 14 (u.vramAddr.toNat + (if u.ctrl.getLsbD 2 then 32 else 1)) := by
    rw [BitVec.ofNat_add, BitVec.ofNat_toNat, BitVec.setWidth_eq]
    split <;> rfl
  rw [addrIncrement, sum]

theorem addrIncrement_one {u : Ppu} (h : u.ctrl.getLsbD 2 = false) :
    u.addrIncrement = { u with vramAddr := u.vramAddr + 1 } := by
  rw [addrIncrement, h]; rfl

theorem vramByte_nametable {u : Ppu} (lo : 0x2000 ≤ u.vramAddr.toNat) (hi : u.vramAddr.toNat ≤ 0x3EFF) (cfg : Params) :
    u.vramByte cfg = u.vram.read (mirrorVram cfg.mirroring u.vramAddr) := by
  rw [vramByte, vramTarget_nametable lo hi]

theorem vramByte_palette {u : Ppu} (h : 0x3F00 ≤ u.vramAddr.toNat) (cfg : Params) :
    u.vramByte cfg = u.palette.read (palIndex u.vramAddr) := by
  rw [vramByte, vramTarget_palette h]

/-- The byte behind the port, by the address map (R288). -/
theorem vramByte_eq (cfg : Params) (u : Ppu) :
    u.vramByte cfg =
      if u.vramAddr.toNat ≤ 0x1FFF then cfg.chr.read u.vramAddr.toNat
      else if u.vramAddr.toNat ≤ 0x3EFF then u.vram.read (mirrorVram cfg.mirroring u.vramAddr)
      else u.palette.read (palIndex u.vramAddr) := by
  split
  · next chr => rw [vramByte, vramTarget_chr chr]
  · split
    · next below => exact vramByte_nametable (by omega) below cfg
    · exact vramByte_palette (by omega) cfg

end Ppu

/-- Below the palette a read gives the buffer and refills it (R290). -/
theorem busRead_data_buffered {s : State} (h : s.ppu.vramAddr.toNat ≤ 0x3EFF) :
    busRead 0x2007 s =
      (s.ppu.readBuf, s.setPpu { s.ppu with readBuf := s.ppu.vramByte s.params }.addrIncrement) := by
  rw [busRead_ppuData (by decide) (by decide) (by decide), Ppu.dataRead, if_neg (vramTarget_ne_palette h)]

/-- A palette read is immediate and leaves the buffer (R291). -/
theorem busRead_data_palette {s : State} (h : 0x3F00 ≤ s.ppu.vramAddr.toNat) :
    busRead 0x2007 s = (s.ppu.vramByte s.params, s.setPpu s.ppu.addrIncrement) := by
  rw [busRead_ppuData (by decide) (by decide) (by decide), Ppu.dataRead, if_pos (vramTarget_palette h)]

/-- A data write is the diagnostic, where there is one, and the PPU's own write (R289). -/
theorem busWrite_data (v : Byte) (s : State) :
    busWrite 0x2007 v s = (chrWriteDiag v s).setPpu (s.ppu.dataWrite s.params v) := rfl

/-- A write aimed at character ROM is a diagnostic (R289, R292). -/
theorem busWrite_data_chr {s : State} (h : s.ppu.vramAddr.toNat ≤ 0x1FFF) (v : Byte) :
    busWrite 0x2007 v s =
      (s.emit (.diag .illegalWrite (BitVec.ofNat 16 s.ppu.vramAddr.toNat) v)).setPpu s.ppu.addrIncrement := by
  have target := vramTarget_chr h
  rw [busWrite_data, chrWriteDiag, if_pos target, Ppu.dataWrite, target, BitVec.ofNat_toNat]

/-- A write aimed at nametable RAM stores at the mirrored index (R289). -/
theorem busWrite_data_nametable {s : State} (lo : 0x2000 ≤ s.ppu.vramAddr.toNat) (hi : s.ppu.vramAddr.toNat ≤ 0x3EFF)
    (v : Byte) :
    busWrite 0x2007 v s =
      s.setPpu { s.ppu with
        vram := s.ppu.vram.write (mirrorVram s.params.mirroring s.ppu.vramAddr) v }.addrIncrement := by
  have target := vramTarget_nametable lo hi
  rw [busWrite_data, chrWriteDiag, if_neg (by rw [target]; decide), Ppu.dataWrite, target]

/-- A write aimed at the palette stores at the palette index (R289). -/
theorem busWrite_data_palette {s : State} (h : 0x3F00 ≤ s.ppu.vramAddr.toNat) (v : Byte) :
    busWrite 0x2007 v s =
      s.setPpu { s.ppu with palette := s.ppu.palette.write (palIndex s.ppu.vramAddr) v }.addrIncrement := by
  have target := vramTarget_palette h
  rw [busWrite_data, chrWriteDiag, if_neg (by rw [target]; decide), Ppu.dataWrite, target]

/-! ## Register writes through the bus -/

/-- A register write touches the PPU and the events only (R270). -/
theorem ppuRegWrite_frame (off : BitVec 3) (v : Byte) (s : State) :
    (ppuRegWrite off v s).setPpu s.ppu = s.setEvents (ppuRegWrite off v s).events := by
  unfold ppuRegWrite chrWriteDiag
  (repeat' split) <;> rfl

/-- Two writes to the address register set the address the data port uses (R283). -/
theorem busWrite_addr_pair {s : State} (hw : s.ppu.w = false) (A : BitVec 14) :
    busWrite 0x2006 (BitVec.ofNat 8 (A.toNat % 256)) (busWrite 0x2006 (BitVec.ofNat 8 (A.toNat / 256)) s) =
      s.setPpu { s.ppu with vramAddr := A } :=
  congrArg s.setPpu (Ppu.addrWrite_pair hw A)

section
variable {s : State} {A : BitVec 14} (hw : s.ppu.w = false) (hc : s.ppu.ctrl.getLsbD 2 = false)
  (lo : 0x2000 ≤ A.toNat) (hi : A.toNat ≤ 0x3EFF)
include hw hc lo hi

/-- A nametable byte written through the ports: set the address, then write the data (R283, R289). -/
theorem busWrite_nametable_at (v : Byte) :
    busWrite 0x2007 v (busWrite 0x2006 (BitVec.ofNat 8 (A.toNat % 256))
        (busWrite 0x2006 (BitVec.ofNat 8 (A.toNat / 256)) s)) =
      s.setPpu { s.ppu with vram := s.ppu.vram.write (mirrorVram s.params.mirroring A) v, vramAddr := A + 1 } := by
  rw [busWrite_addr_pair hw, busWrite_data_nametable lo hi, Ppu.addrIncrement_one]
  · rfl
  · exact hc

/-- A nametable byte fetched through the ports: set the address, then read the data, which gives the old buffer (R283, R290). -/
theorem busRead_nametable_at :
    busRead 0x2007 (busWrite 0x2006 (BitVec.ofNat 8 (A.toNat % 256))
        (busWrite 0x2006 (BitVec.ofNat 8 (A.toNat / 256)) s)) =
      (s.ppu.readBuf,
        s.setPpu { s.ppu with readBuf := s.ppu.vram.read (mirrorVram s.params.mirroring A), vramAddr := A + 1 }) := by
  rw [busWrite_addr_pair hw, busRead_data_buffered hi, Ppu.vramByte_nametable lo hi, Ppu.addrIncrement_one]
  · rfl
  · exact hc

end

/-- The status byte as a number: three flags over five zero bits (R276). -/
theorem statusByte_toNat (u : Ppu) :
    u.statusByte.toNat =
      (if u.vblank then 128 else 0) + (if u.sprite0Hit then 64 else 0) + (if u.spriteOverflow then 32 else 0) := by
  unfold Ppu.statusByte
  cases u.vblank <;> cases u.sprite0Hit <;> cases u.spriteOverflow <;> rfl

/-! ## The statements of the PPU registers -/

/-- Settles O50: the offset in the nametables is the address modulo 4096, and the palette index is its low five bits. -/
theorem nametableAndPaletteMirroring : Obligations.NametableAndPaletteMirroring := by
  refine ⟨fun a lo hi => ⟨?_, ?_, fun m => ⟨mirrorVram_lt m a lo, mirrorVram_mod m lo⟩⟩, fun a _ => palIndex_eq a⟩
  · rw [mirrorVram_vertical lo]; omega
  · have offset : (a.toNat - 0x2000) % 0x1000 = a.toNat % 0x1000 := by omega
    rw [mirrorVram_horizontal lo, offset]; omega

/-- Settles O48: the access by the target of the address, then the step of the address. -/
theorem dataPort : Obligations.DataPort := by
  intro s v
  refine ⟨fun hi => ?_, fun lo => ?_, fun hi => ?_, fun lo hi => ?_, fun lo => ?_⟩
  · rw [busRead_data_buffered hi, Ppu.addrIncrement_eq, Ppu.vramByte_eq]; rfl
  · rw [busRead_data_palette lo, Ppu.addrIncrement_eq, Ppu.vramByte_eq]; rfl
  · rw [busWrite_data_chr hi, Ppu.addrIncrement_eq]; rfl
  · rw [busWrite_data_nametable lo hi, Ppu.addrIncrement_eq]
    exact ⟨rfl, fun k => Memory.read_write _ _ _ _⟩
  · rw [busWrite_data_palette lo, Ppu.addrIncrement_eq]
    exact ⟨rfl, fun k => Memory.read_write _ _ _ _⟩

/-- Settles O49: the write and the first read each set the address anew; the second read goes by the address after `A`. -/
theorem nametableRoundTrip : Obligations.NametableRoundTrip := by
  intro s A v hw hc lo hi high low s1 s2 r1 r2
  have written : s1 = s.setPpu
      { s.ppu with vram := s.ppu.vram.write (mirrorVram s.params.mirroring A) v, vramAddr := A + 1 } :=
    busWrite_nametable_at hw hc lo hi v
  have firstRead : r1 = (s.ppu.readBuf, s1.setPpu { s1.ppu with readBuf := v, vramAddr := A + 1 }) := by
    have fetched := busRead_nametable_at (s := s1) (by rw [written]; exact hw) (by rw [written]; exact hc) lo hi
    have stored : s1.ppu.vram.read (mirrorVram s1.params.mirroring A) = v := by
      rw [written]; exact Memory.read_write_same _ _ _
    have buffer : s1.ppu.readBuf = s.ppu.readBuf := by rw [written]; rfl
    rwa [stored, buffer] at fetched
  have next : r1.2.ppu.vramAddr = A + 1 := by rw [firstRead]; rfl
  have number : r1.2.ppu.vramAddr.toNat = A.toNat + 1 := by
    rw [next, BitVec.toNat_add]
    exact Nat.mod_eq_of_lt (by show A.toNat + 1 < 2 ^ 14; omega)
  refine ⟨by rw [written]; rfl, by rw [firstRead], by rw [firstRead]; rfl, next, fun below => ?_, fun last => ?_⟩
  · show (busRead 0x2007 r1.2).1 = v ∧ (busRead 0x2007 r1.2).2.ppu.readBuf = _
    rw [busRead_data_buffered (by omega), Ppu.vramByte_nametable (by omega) (by omega), firstRead, written]
    exact ⟨rfl, rfl⟩
  · show (busRead 0x2007 r1.2).1 = _ ∧ (busRead 0x2007 r1.2).2.ppu.readBuf = v
    have backdrop : palIndex r1.2.ppu.vramAddr = 0 := by rw [palIndex_eq, number, last]; rfl
    rw [busRead_data_palette (by omega), Ppu.vramByte_palette (by omega), backdrop, firstRead, written]
    exact ⟨rfl, rfl⟩

/-- Settles O47: register by register, under the two values of the toggle. -/
theorem portAndToggleWrites : Obligations.PortAndToggleWrites := by
  intro s a v lo hi
  rw [busWrite_ppu lo hi]
  refine ⟨?_, fun h => ?_, fun h => ?_, fun h => ?_, fun h hw => ?_, fun h hw => ?_, fun h hw => ?_, fun h hw => ?_⟩
  · exact ppuRegWrite_frame _ v s
  · rw [h]; rfl
  · rw [h]; rfl
  · rw [h]; exact ⟨rfl, fun k => Memory.read_write _ _ _ _⟩
  · rw [h]; exact if_neg (by simp [hw])
  · rw [h]; exact if_pos hw
  · rw [h]; exact ⟨Ppu.addrWrite_first hw v, Ppu.addrWrite_first_toNat hw v⟩
  · rw [h]; exact ⟨Ppu.addrWrite_second hw v, Ppu.addrWrite_second_toNat hw v⟩

/-- Settles O46: the two accesses are the PPU's own, whatever the image. -/
theorem controlWriteAndStatusRead : Obligations.ControlWriteAndStatusRead := by
  intro s a v lo hi
  refine ⟨fun h => ?_, fun h => ?_⟩
  · rw [busWrite_ppu lo hi, h]; rfl
  · rw [busRead_ppuStatus lo hi h]
    exact ⟨rfl, statusByte_toNat s.ppu⟩

end Sys2Proof.Machine
end

section
/-! SUPPORT. The statement of a frame of dots (O51): dots that meet neither event move the position alone, and the two events are
one dot each. -/

namespace Sys2Proof.Machine

namespace Ppu

/-! ## Dots by number in the frame -/

/-- The PPU moved to the `n`th dot of the frame, its timer alone (R42). -/
def atDot (n : Nat) (u : Ppu) : Ppu := { u with scanline := n / 341, cycle := n % 341 }

/-- The first dot of a frame is dot 0. -/
theorem atDot_zero {u : Ppu} (hs : u.scanline = 0) (hc : u.cycle = 0) : u.atDot 0 = u := by
  obtain ⟨⟩ := u
  cases hs
  cases hc
  rfl

@[simp] theorem atDot_scanline (n : Nat) (u : Ppu) : (u.atDot n).scanline = n / 341 := rfl
@[simp] theorem atDot_cycle (n : Nat) (u : Ppu) : (u.atDot n).cycle = n % 341 := rfl

/-- Between its two events, a dot moves to the next dot and nothing else (R311). -/
theorem dot_atDot {n : Nat} (u : Ppu) (entry : n + 1 ≠ 82181) (wrap : n + 1 < 89342) :
    (u.atDot n).dot = u.atDot (n + 1) := by
  rw [dot_eq, atDot_scanline, atDot_cycle]
  by_cases last : n % 341 + 1 = 341
  · have line : (n + 1) / 341 = n / 341 + 1 := by omega
    have first : (n + 1) % 341 = 0 := by omega
    rw [if_pos last, if_neg (by omega), if_neg (by omega), atDot, atDot, line, first]
  · have line : (n + 1) / 341 = n / 341 := by omega
    have next : (n + 1) % 341 = n % 341 + 1 := by omega
    rw [if_neg last, atDot, atDot, line, next]

/-- The dot that reaches scanline 241 enters vblank (R311, R313). -/
theorem dot_atDot_enterVblank (u : Ppu) : (u.atDot 82180).dot = u.enterVblank.atDot 82181 := rfl

/-- The dot that reaches scanline 262 wraps the frame (R311, R314). -/
theorem dot_atDot_wrapFrame (u : Ppu) : (u.atDot 89341).dot = u.wrapFrame.atDot 0 := rfl

/-- Dots that meet neither event of the frame move its position alone. -/
theorem dots_atDot {n : Nat} (k : Nat) (u : Ppu) (h : n + k < 82181 ∨ 82181 ≤ n ∧ n + k < 89342) :
    dots k (u.atDot n) = u.atDot (n + k) := by
  induction k with
  | zero => rfl
  | succ k ih => rw [dots, ih (by omega), dot_atDot u (by omega) (by omega), Nat.add_assoc]

/-- The dots of a frame up to vblank. -/
theorem dots_before_vblank {n : Nat} (u : Ppu) (h : n < 82181) : dots n (u.atDot 0) = u.atDot n := by
  rw [dots_atDot n u (by omega), Nat.zero_add]

/-- The dots of a frame from vblank entry on, to its last dot. -/
theorem dots_in_vblank {n : Nat} (u : Ppu) (lo : 82181 ≤ n) (hi : n < 89342) :
    dots n (u.atDot 0) = u.enterVblank.atDot n := by
  obtain ⟨k, rfl⟩ := Nat.exists_eq_add_of_le' lo
  have entered : dots 82181 (u.atDot 0) = u.enterVblank.atDot 82181 := by
    rw [dots, dots_before_vblank u (by omega), dot_atDot_enterVblank]
  rw [dots_add, entered, dots_atDot k _ (by omega), Nat.add_comm]

/-- The dots of a whole frame. -/
theorem dots_frame (u : Ppu) : dots 89342 (u.atDot 0) = u.enterVblank.wrapFrame.atDot 0 := by
  rw [dots, dots_in_vblank u (by omega) (by omega), dot_atDot_wrapFrame]

end Ppu

/-! ## The statement of a frame of dots -/

/-- Settles O51: the dots up to vblank entry and those from there to the last move the position alone; each event is one dot. -/
theorem frameOfDots : Obligations.FrameOfDots := by
  intro u hs hc
  rw [← Ppu.atDot_zero hs hc]
  exact ⟨fun _ h => Ppu.dots_before_vblank u h, fun _ lo hi => Ppu.dots_in_vblank u lo hi, Ppu.dots_frame u⟩

end Sys2Proof.Machine
end

section
/-! SUPPORT. The statements of the APU's frame counter and length counters (O53 to O55): the sequencer over any number of ticks, what
a firing step and a half frame clock, and the registers `0x4015` and `0x4017`. -/

namespace Sys2Proof.Machine

/-! ## The sequencer (R331, R333, R335) -/

/-- The frame counter `n` ticks after the start of its sequence. -/
def FrameCounter.afterTicks (fc : FrameCounter) (n : Nat) : FrameCounter :=
  { fc with
    step := n / 7457 % (if fc.mode then 5 else 4)
    divider := n % 7457
    frameIrq := fc.frameIrq || (!fc.mode && !fc.irqInhibit && decide (29828 ≤ n)) }

/-- At the start of its sequence the frame counter is as after no tick. -/
theorem FrameCounter.afterTicks_zero {fc : FrameCounter} (step : fc.step = 0) (divider : fc.divider = 0) :
    fc.afterTicks 0 = fc := by
  obtain ⟨⟩ := fc
  cases step
  cases divider
  simp [afterTicks]

/-- The IRQ after the tick that ends a divider period: the fourth period of the 4-step mode is the first to raise it (R335). -/
theorem frameIrq_after_period {n : Nat} (period : n % 7457 = 7456) (irq mode inhibit : Bool) :
    ((irq || (!mode && !inhibit && decide (29828 ≤ n))) ||
        (!mode && decide (n / 7457 % (if mode then 5 else 4) = 3) && !inhibit)) =
      (irq || (!mode && !inhibit && decide (29828 ≤ n + 1))) := by
  cases mode with
  | true => simp
  | false =>
    have raised : 29828 ≤ n + 1 ↔ 29828 ≤ n ∨ n / 7457 % 4 = 3 := by omega
    cases inhibit <;> simp [raised, Bool.or_assoc]

/-- A tick moves the frame counter to the next tick of its sequence. -/
theorem Apu.tick_afterTicks {u : Apu} {fc : FrameCounter} {n : Nat} (h : u.fc = fc.afterTicks n) :
    u.tick.fc = fc.afterTicks (n + 1) := by
  have divider : u.fc.divider = n % 7457 := by rw [h]; rfl
  rw [tick_fc, divider]
  split
  · next period =>
    have step : (n / 7457 % (if fc.mode then 5 else 4) + 1) % sequenceLength fc.mode =
        (n + 1) / 7457 % (if fc.mode then 5 else 4) := by
      cases fc.mode <;> simp [sequenceLength] <;> omega
    have restart : (n + 1) % 7457 = 0 := by omega
    rw [h, FrameCounter.afterTicks, FrameCounter.afterTicks, ← frameIrq_after_period period, ← step, restart]
  · next within =>
    have step : (n + 1) / 7457 = n / 7457 := by omega
    have count : (n + 1) % 7457 = n % 7457 + 1 := by omega
    have irq : 29828 ≤ n + 1 ↔ 29828 ≤ n := by omega
    rw [h]
    simp only [FrameCounter.afterTicks, step, count, irq]

/-! ## What a step clocks (R332) -/

/-- A sweep clock writes the period and the sweep unit, and does not see the length counter. -/
theorem Pulse.sweepClock_withLength (id : PulseId) (c : Pulse) (n : Byte) :
    ({ c with length := n } : Pulse).sweepClock id =
      { c with length := n, period := (c.sweepClock id).period, sweep := (c.sweepClock id).sweep } := by
  have condition : ({ c with length := n } : Pulse).sweepMuting id = c.sweepMuting id := rfl
  simp only [sweepClock, sweepUpdate, condition]
  split <;> rfl

/-- The half-frame steps are those of the table of R331. -/
theorem Apu.halfAt_eq (mode : Bool) (step : Nat) : halfAt mode step = (step ∈ [1, 3] || (mode && step == 4)) := by
  simp [halfAt, Bool.or_assoc, beq_eq_decide]

/-- A firing step clocks a quarter frame, with a half frame where the table has one, and then writes the frame counter (R331). -/
theorem Apu.frameStep_eq (u : Apu) :
    u.frameStep =
      { (if halfAt u.fc.mode u.fc.step then u.quarterFrame.halfFrame else u.quarterFrame) with fc := u.frameStep.fc } := by
  simp only [frameStep]
  rfl

/-- A tick that ends a divider period fires a step (R333). -/
theorem Apu.frameCounterTick_of_period {u : Apu} (h : u.fc.divider = 7456) :
    u.frameCounterTick = ({ u with fc := { u.fc with divider := 0 } } : Apu).frameStep :=
  if_pos (by rw [h]; rfl)

/-- Within a divider period a tick only counts (R333). -/
theorem Apu.frameCounterTick_of_ne {u : Apu} (h : u.fc.divider ≠ 7456) :
    u.frameCounterTick = { u with fc := { u.fc with divider := u.fc.divider + 1 } } :=
  if_neg (by simp only [Config.frameStepPeriod]; omega)

/-! ## Length counters and status (R342, R388) -/

/-- The length counter as a number: it counts down to 0 and stays there, and does not count where it is halted (R342). -/
theorem lengthClock_toNat (halt : Bool) (c : Byte) :
    (lengthClock halt c).toNat = (if halt then c.toNat else c.toNat - 1) := by
  unfold lengthClock
  cases halt with
  | true => rfl
  | false =>
    by_cases stopped : c = 0
    · subst stopped; rfl
    · rw [if_pos (by simpa using stopped), if_neg Bool.false_ne_true]
      bv_omega

/-- The bit of a counter that runs (R388). -/
theorem bit_ne_zero (c : Byte) : bit (c ≠ 0) = if c = 0 then 0 else 1 := by
  by_cases h : c = 0
  · subst h; rfl
  · rw [if_neg h, decide_eq_true h]; rfl

/-- The status byte of `0x4015` as a number: three running counters and the frame IRQ (R388). -/
theorem Apu.statusByte_toNat (u : Apu) :
    u.statusByte.toNat =
      (if u.pulse1.length = 0 then 0 else 1) + (if u.pulse2.length = 0 then 0 else 2) +
      (if u.tri.length = 0 then 0 else 4) + (if u.fc.frameIrq then 64 else 0) := by
  rw [statusByte, bit_ne_zero, bit_ne_zero, bit_ne_zero, bit]
  split_ifs <;> rfl

/-! ## The statements of the frame counter and the length counters -/

/-- Settles O53: by induction over the ticks, each of which moves the frame counter to the next tick of its sequence. -/
theorem frameCounterSequence : Obligations.FrameCounterSequence := by
  intro u n step divider
  show (Apu.ticks n u).fc = u.fc.afterTicks n
  induction n with
  | zero => exact (FrameCounter.afterTicks_zero step divider).symm
  | succ n ih => exact Apu.tick_afterTicks ih

/-- Settles O54: the parts are the clocks of R332, a tick by its divider and its parity, and the write by its mode bit. -/
theorem frameCounterClocks : Obligations.FrameCounterClocks := by
  refine ⟨fun c => rfl, fun id c => Pulse.sweepClock_withLength id c _, fun t => rfl, ?_,
    fun u within => Apu.frameCounterTick_of_ne within, fun u => ?_, ?_⟩
  · intro u _ period half t
    have fired : t = _ := (Apu.frameCounterTick_of_period period).trans (Apu.frameStep_eq _)
    have table : Apu.halfAt u.fc.mode u.fc.step = half := Apu.halfAt_eq _ _
    have counter : t.fc.divider = 0 := by
      rw [show t = _ from Apu.frameCounterTick_of_period period, Apu.frameStep_fc]
    rw [table] at fired
    refine ⟨?_, ?_, ?_, ?_, counter⟩ <;> rw [fired] <;> cases half <;> rfl
  · unfold Apu.tick Apu.clockTimers
    cases u.apuOdd <;> rfl
  · intro s v
    have written : busWrite 0x4017 v s = s.setApu (s.apu.frameCounterWrite v) := rfl
    have irq : (if v.getLsbD 6 then false else s.apu.fc.frameIrq) = (s.apu.fc.frameIrq && !v.getLsbD 6) := by
      cases v.getLsbD 6 <;> simp
    rw [written, ← irq, Apu.frameCounterWrite]
    cases v.getLsbD 7 <;> exact ⟨rfl, rfl, rfl, rfl, rfl⟩

/-- Settles O55: the clock as a number, and the two accesses of `0x4015`. -/
theorem lengthCountersAndStatus : Obligations.LengthCountersAndStatus := by
  refine ⟨lengthClock_toNat, fun s v => ⟨rfl, rfl, rfl, rfl, rfl⟩, fun s => ?_⟩
  rw [busRead_apuStatus rfl]
  exact ⟨Apu.statusByte_toNat s.apu, rfl⟩

end Sys2Proof.Machine
end

section
/-! SUPPORT. The statements of the APU's channels (O56 to O60): the register fields as numbers, and the countdown that envelopes and
channel timers share. -/

namespace Sys2Proof.Machine

/-! ## Register fields as numbers (R341, R370 to R373, R380 to R382) -/

/-- A write to the high bits of a period keeps its low eight (R373, R382). -/
theorem periodHigh_eq (p : BitVec 11) (v : Byte) :
    periodHigh p v = BitVec.ofNat 11 (256 * (v.toNat % 8) + p.toNat % 256) := by
  have high : ((v &&& 0x07).setWidth 11 <<< 8).toNat = 2 ^ 8 * (v.toNat % 8) := by
    have three : (v &&& 0x07).toNat = v.toNat % 8 := Nat.and_two_pow_sub_one_eq_mod v.toNat 3
    rw [BitVec.toNat_shiftLeft, BitVec.toNat_setWidth, three, Nat.shiftLeft_eq]
    omega
  have low : (p &&& 0x0FF).toNat = p.toNat % 256 := Nat.and_two_pow_sub_one_eq_mod p.toNat 8
  apply BitVec.eq_of_toNat_eq
  rw [periodHigh, BitVec.toNat_or, high, low, ← Nat.two_pow_add_eq_or_of_lt (Nat.mod_lt _ (by decide)), BitVec.toNat_ofNat]
  omega

/-- A write to the low bits of a period keeps its high three (R372, R381). -/
theorem periodLow_eq (p : BitVec 11) (v : Byte) :
    periodLow p v = BitVec.ofNat 11 (256 * (p.toNat / 256) + v.toNat) := by
  have bound := p.isLt
  have high : (p &&& 0x700).toNat = 2 ^ 8 * (p.toNat / 256) := by
    have quotient : (p.toNat &&& 0x700) / 2 ^ 8 = p.toNat / 2 ^ 8 % 2 ^ 3 := by
      rw [Nat.and_div_two_pow]; exact Nat.and_two_pow_sub_one_eq_mod _ 3
    have remainder : (p.toNat &&& 0x700) % 2 ^ 8 = 0 := by
      rw [Nat.and_mod_two_pow]; exact Nat.and_zero _
    rw [BitVec.toNat_and]
    show p.toNat &&& 0x700 = _
    omega
  have low : (v.setWidth 11).toNat = v.toNat := BitVec.toNat_setWidth_of_le (by decide)
  apply BitVec.eq_of_toNat_eq
  rw [periodLow, BitVec.toNat_or, high, low, ← Nat.two_pow_add_eq_or_of_lt v.isLt, BitVec.toNat_ofNat]
  omega

/-- The length table holds the numbers of R340. -/
theorem lengthValue_eq (v : Byte) : lengthValue v = BitVec.ofNat 8 (lengthTableOfR340.getD (v.toNat / 8) 0) := by
  have table : lengthTable = lengthTableOfR340.map (BitVec.ofNat 8) := rfl
  rw [lengthValue, table]
  exact List.getD_map _ 0 _

/-- A field of `len` bits from bit `start` on. -/
theorem extractLsb'_eq_ofNat (v : Byte) (start len : Nat) : v.extractLsb' start len = BitVec.ofNat len (v.toNat / 2 ^ start) := by
  rw [← Nat.shiftRight_eq_div_pow]; rfl

/-- A number is cut to the width of its field. -/
theorem ofNat_mod_two_pow (w n : Nat) : BitVec.ofNat w (n % 2 ^ w) = BitVec.ofNat w n :=
  BitVec.eq_of_toNat_eq (by simp)

section
variable (c : Pulse) (v : Byte)

theorem Pulse.writeControl_eq :
    c.writeControl v =
      { c with
        duty := BitVec.ofNat 2 (v.toNat / 64)
        env := { c.env with loop := v.getLsbD 5, constant := v.getLsbD 4, volume := BitVec.ofNat 4 (v.toNat % 16) } } := by
  rw [writeControl, extractLsb'_eq_ofNat, extractLsb'_eq_ofNat, pow_zero, Nat.div_one, ← ofNat_mod_two_pow 4]
  rfl

theorem Pulse.writeSweep_eq :
    c.writeSweep v =
      { c with
        sweep :=
          { c.sweep with
            enabled := v.getLsbD 7, period := BitVec.ofNat 3 (v.toNat / 16 % 8), negate := v.getLsbD 3
            shift := BitVec.ofNat 3 (v.toNat % 8), reload := true } } := by
  rw [writeSweep, extractLsb'_eq_ofNat, extractLsb'_eq_ofNat, pow_zero, Nat.div_one, ← ofNat_mod_two_pow 3,
    ← ofNat_mod_two_pow 3 v.toNat]
  rfl

end

/-! ## Registers of absent channels (R389) -/

section
variable {a : Word} (lo : 0x400C ≤ a.toNat) (hi : a.toNat ≤ 0x4013)
include lo hi

theorem Apu.regWrite_absent (u : Apu) (v : Byte) : u.regWrite (a.setWidth 5) v = u := by
  have number : (a.setWidth 5).toNat = a.toNat - 0x4000 := by rw [BitVec.toNat_setWidth]; omega
  rw [regWrite, number, if_neg (by omega), if_neg (by omega), if_neg (by omega), if_neg (by omega), if_neg (by omega)]

theorem busWrite_absent (v : Byte) (s : State) : busWrite a v s = s := by
  have window : windowOf a = .apuRegs := (windowOf_apuRegs_iff a).2 ⟨by omega, hi⟩
  simp only [busWrite, window, Apu.regWrite_absent lo hi]
  rfl

end

/-! ## Counting down (R346, R374, R383) -/

/-- A unit that takes one from its counter at each clock has it at 0 after as many clocks as it stood at. -/
theorem iterate_countdown {α : Type} {w : Nat} {clock : α → α} {counting : BitVec w → α}
    (count : ∀ n, n ≠ 0 → clock (counting n) = counting (n - 1)) (n : BitVec w) :
    clock^[n.toNat] (counting n) = counting 0 := by
  generalize hk : n.toNat = k
  induction k generalizing n with
  | zero =>
    obtain rfl : n = 0 := BitVec.eq_of_toNat_eq hk
    rfl
  | succ k ih =>
    have bound : k + 1 < 2 ^ w := hk ▸ n.isLt
    have one : (1 : BitVec w).toNat = 1 := (BitVec.toNat_ofNat 1 w).trans (Nat.mod_eq_of_lt (by omega))
    have positive : 1 ≤ n := BitVec.le_def.2 (by rw [one, hk]; omega)
    have running : n ≠ 0 := by rintro rfl; simp at hk
    rw [Function.iterate_succ_apply, count n running]
    exact ih (n - 1) (by rw [BitVec.toNat_sub_of_le positive, one, hk, Nat.add_sub_cancel])

/-- From a counter at `n`, the `n + 1`st clock is the one at which the counter has run out. -/
theorem iterate_period {α : Type} {w : Nat} {clock : α → α} {counting : BitVec w → α}
    (count : ∀ n, n ≠ 0 → clock (counting n) = counting (n - 1)) {m n : BitVec w} (full : m = n) :
    clock^[n.toNat + 1] (counting m) = clock (counting 0) := by
  rw [Function.iterate_succ_apply', full, iterate_countdown count]

/-! ## Envelopes (R346, R348) -/

section
variable {e : Envelope}

theorem Envelope.clock_of_start (h : e.start = true) : e.clock = { e with start := false, decay := 15, divider := e.volume } :=
  if_pos h

theorem Envelope.clock_of_counting (h : e.start = false) {n : BitVec 4} (running : n ≠ 0) :
    ({ e with divider := n } : Envelope).clock = { e with divider := n - 1 } :=
  (if_neg (ne_true_of_eq_false h)).trans (if_neg running)

/-- Where its divider has run out, an envelope fills it and moves its level (R346). -/
theorem Envelope.clock_of_expired (h : e.start = false) :
    ({ e with divider := 0 } : Envelope).clock =
      { e with divider := e.volume, decay := if e.decay = 0 then (if e.loop then 15 else 0) else e.decay - 1 } := by
  refine (if_neg (ne_true_of_eq_false h)).trans ((if_pos rfl).trans ?_)
  have level : (if e.decay ≠ 0 then e.decay - 1 else if e.loop then 15 else e.decay) =
      if e.decay = 0 then (if e.loop then 15 else 0) else e.decay - 1 := by
    rw [ite_not]
    exact ite_congr rfl (fun zero => by rw [zero]) (fun _ => rfl)
  rw [← level]

end

/-! ## Sweep units (R351 to R353) -/

/-- A sweep clock writes the period and the sweep unit (R353). -/
theorem Pulse.sweepClock_eq (id : PulseId) (c : Pulse) :
    c.sweepClock id = { c with period := (c.sweepUpdate id).period, sweep := c.sweep.clockDivider } := by
  unfold sweepClock sweepUpdate
  dsimp only
  split <;> rfl

/-- The target as an integer (R351). -/
theorem Pulse.sweepTarget_eq (id : PulseId) (c : Pulse) :
    c.sweepTarget id =
      let change : Int := (c.period.toNat / 2 ^ c.sweep.shift.toNat : Nat)
      if c.sweep.negate then max 0 ((c.period.toNat : Int) - change - (if id = .one then 1 else 0))
      else c.period.toNat + change := by
  rw [sweepTarget, BitVec.toNat_ushiftRight, Nat.shiftRight_eq_div_pow]

/-- The target lies within an 11-bit period and as much again (R351). -/
theorem Pulse.sweepTarget_bounds (id : PulseId) (c : Pulse) : 0 ≤ c.sweepTarget id ∧ c.sweepTarget id ≤ 0xFFE := by
  have bound := c.period.isLt
  have change := Nat.div_le_self c.period.toNat (2 ^ c.sweep.shift.toNat)
  rw [sweepTarget_eq]
  dsimp only
  generalize c.period.toNat / 2 ^ c.sweep.shift.toNat = d at *
  split
  · omega
  · omega

/-- The condition of the period update (R353). -/
def Pulse.SweepFires (id : PulseId) (c : Pulse) : Prop :=
  c.sweep.divider = 0 ∧ c.sweep.enabled = true ∧ c.sweep.shift ≠ 0 ∧ 8 ≤ c.period.toNat ∧ c.sweepTarget id ≤ 0x7FF

/-- A unit mutes a period below 8 and a target above `0x7FF` (R352). -/
theorem Pulse.sweepMuting_eq_false_iff (id : PulseId) (c : Pulse) :
    c.sweepMuting id = false ↔ 8 ≤ c.period.toNat ∧ c.sweepTarget id ≤ 0x7FF := by
  simp [sweepMuting]

/-- Where the update fires, the period is the target: no target that is not muted needs a twelfth bit (R353). -/
theorem Pulse.sweepUpdate_period_of_fires {id : PulseId} {c : Pulse} (h : c.SweepFires id) :
    ((c.sweepUpdate id).period.toNat : Int) = c.sweepTarget id := by
  obtain ⟨divider, enabled, shift, period, target⟩ := h
  have lower := (sweepTarget_bounds id c).1
  rw [sweepUpdate, if_pos ⟨divider, enabled, shift, (sweepMuting_eq_false_iff id c).2 ⟨period, target⟩⟩]
  show ((BitVec.ofInt 11 (c.sweepTarget id)).toNat : Int) = _
  rw [BitVec.toNat_ofInt]
  omega

theorem Pulse.sweepUpdate_of_not_fires {id : PulseId} {c : Pulse} (h : ¬ c.SweepFires id) : c.sweepUpdate id = c :=
  if_neg fun ⟨divider, enabled, shift, muting⟩ => h ⟨divider, enabled, shift, (sweepMuting_eq_false_iff id c).1 muting⟩

/-! ## Pulse channels (R374 to R376) -/

section
variable (c : Pulse)

theorem Pulse.timerClock_of_counting {n : BitVec 11} (running : n ≠ 0) :
    ({ c with timer := n } : Pulse).timerClock = { c with timer := n - 1 } := if_neg running

theorem Pulse.timerClock_of_expired :
    ({ c with timer := 0 } : Pulse).timerClock = { c with timer := c.period, seqPos := c.seqPos + 1 } := rfl

end

/-- The positions of each pattern at which its bit is set (R375). -/
def dutyHigh (duty : BitVec 2) (pos : BitVec 3) : Bool :=
  match duty.toNat with
  | 0 => decide (pos.toNat ∈ [1])
  | 1 => decide (pos.toNat ∈ [1, 2])
  | 2 => decide (pos.toNat ∈ [1, 2, 3, 4])
  | _ => decide (pos.toNat ∉ [1, 2])

theorem dutyBit_eq_dutyHigh : ∀ (duty : BitVec 2) (pos : BitVec 3), dutyBit duty pos = dutyHigh duty pos := by decide

/-! ## The triangle channel (R383, R384) -/

section
variable (t : Triangle)

theorem Triangle.timerClock_of_counting {n : BitVec 11} (running : n ≠ 0) :
    ({ t with timer := n } : Triangle).timerClock = { t with timer := n - 1 } := if_neg running

theorem Triangle.timerClock_of_expired :
    ({ t with timer := 0 } : Triangle).timerClock =
      { t with timer := t.period, seqPos := if t.length ≠ 0 ∧ t.linear ≠ 0 then t.seqPos + 1 else t.seqPos } := rfl

variable {t}

/-- The linear counter, as the statement writes its two branches (R383). -/
theorem Triangle.linearClock_eq (t : Triangle) :
    t.linearClock =
      { t with
        linear := if t.linearReload then t.linearReloadValue else if t.linear = 0 then 0 else t.linear - 1
        linearReload := t.linearReload && t.control } := by
  have count : (if t.linear ≠ 0 then t.linear - 1 else t.linear) = if t.linear = 0 then 0 else t.linear - 1 := by
    rw [ite_not]
    exact ite_congr rfl id (fun _ => rfl)
  have flag : (if t.control then t.linearReload else false) = (t.linearReload && t.control) := by
    cases t.control <;> simp
  rw [linearClock, count, flag]

theorem Triangle.output_of_running (length : t.length ≠ 0) (linear : t.linear ≠ 0) : t.output = triTable t.seqPos.toNat :=
  if_neg (not_or.2 ⟨length, linear⟩)

end

/-! ## The statements of the channels -/

/-- Settles O56: register by register, each field as its number. -/
theorem channelRegisterWrites : Obligations.ChannelRegisterWrites := by
  intro s v load high low reg0 reg1 reg2 reg3 u
  have load_eq : ∀ (enabled : Bool) (c : Byte), lengthLoad enabled c v = load enabled c := fun enabled c => by
    rw [lengthLoad, lengthValue_eq]
  have high_eq : ∀ p, periodHigh p v = high p := fun p => periodHigh_eq p v
  have low_eq : ∀ p, periodLow p v = low p := fun p => periodLow_eq p v
  have control : ∀ c : Pulse, c.writeControl v = reg0 c := fun c => c.writeControl_eq v
  have sweep : ∀ c : Pulse, c.writeSweep v = reg1 c := fun c => c.writeSweep_eq v
  have timerLow : ∀ c : Pulse, c.writeTimerLow v = reg2 c := fun c => by rw [Pulse.writeTimerLow, low_eq]
  have timerHigh : ∀ c : Pulse, c.writeTimerHigh v = reg3 c := fun c => by rw [Pulse.writeTimerHigh, high_eq, load_eq]
  rw [← control, ← sweep, ← timerLow, ← timerHigh, ← control, ← sweep, ← timerLow, ← timerHigh, ← low_eq, ← high_eq, ← load_eq]
  refine ⟨rfl, rfl, rfl, rfl, rfl, rfl, rfl, rfl, ?_, rfl, rfl, rfl, fun a lo hi => ?_⟩
  · show s.setApu { u with tri := u.tri.writeControl v } = _
    rw [Triangle.writeControl, extractLsb'_eq_ofNat, pow_zero, Nat.div_one, ← ofNat_mod_two_pow 7]
    rfl
  · exact busWrite_absent lo hi v s

/-- Settles O57: the divider counts down to 0 in `V` clocks, and the next one moves the level. -/
theorem envelopeDecay : Obligations.EnvelopeDecay := by
  intro e
  refine ⟨Envelope.clock_of_start, fun stopped full => ?_, rfl⟩
  have period := iterate_period (counting := fun n => { e with divider := n }) (fun _ => Envelope.clock_of_counting stopped) full
  refine period.trans ?_
  rw [Envelope.clock_of_expired stopped, ← full]

/-- Settles O58: the period by whether the update fires, the sweep unit by its own clock. -/
theorem sweepUnit : Obligations.SweepUnit := by
  intro id c change target fires t
  have target_eq : c.sweepTarget id = target := by
    rw [Pulse.sweepTarget_eq]
    cases id <;> rfl
  have fires_iff : fires ↔ c.SweepFires id := by rw [Pulse.SweepFires, target_eq]
  have clocked : t = _ := Pulse.sweepClock_eq id c
  obtain ⟨lower, upper⟩ := target_eq ▸ Pulse.sweepTarget_bounds id c
  refine ⟨target_eq, lower, upper, fun h => ?_, fun h => ?_, ?_, ?_⟩
  · rw [clocked, ← target_eq]
    exact Pulse.sweepUpdate_period_of_fires (fires_iff.1 h)
  · rw [clocked, Pulse.sweepUpdate_of_not_fires (mt fires_iff.2 h)]
  · rw [clocked]; rfl
  · rw [clocked]

/-- Settles O59: the timer counts down to 0 in `period` clocks, and the next one moves the position; the output by its gates. -/
theorem pulseChannel : Obligations.PulseChannel := by
  refine ⟨fun c full => ?_, ?_⟩
  · have period := iterate_period (counting := fun n => { c with timer := n }) (fun _ => c.timerClock_of_counting) full
    refine period.trans ?_
    rw [c.timerClock_of_expired, ← full]
  · intro c high
    have selected : dutyBit c.duty c.seqPos = high := dutyBit_eq_dutyHigh c.duty c.seqPos
    unfold Pulse.output
    rw [selected]
    refine ⟨fun set length period => if_pos ⟨set, length, period⟩, fun silent => if_neg ?_, ?_⟩
    · rintro ⟨set, length, period⟩
      rcases silent with h | h | h
      · exact absurd (set.symm.trans h) (by decide)
      · exact length h
      · omega
    · split
      · have := c.env.level.isLt; omega
      · omega

/-- Settles O60: the timer as that of the pulse channels, the output by its table. -/
theorem triangleChannel : Obligations.TriangleChannel := by
  refine ⟨fun t full => ?_, fun t length linear => ?_, fun t h => if_pos h, fun t => ?_⟩
  · have period := iterate_period (counting := fun n => { t with timer := n }) (fun _ => t.timerClock_of_counting) full
    refine period.trans ?_
    rw [t.timerClock_of_expired, ← full]
  · have outputs : ∀ k, ({ t with seqPos := BitVec.ofNat 5 k } : Triangle).output = triTable (BitVec.ofNat 5 k).toNat :=
      fun k => Triangle.output_of_running length linear
    simp only [outputs]
    decide
  · rw [Triangle.linearClock_eq]

end Sys2Proof.Machine
end

section
/-! SUPPORT. The statements of stopping and of interrupts (O10, O16, O17): what sets `halted`, and the state that an interrupt entry
and its step leave. -/

namespace Sys2Proof.Machine

/-! ## Who sets `halted` (R433, R434, R226) -/

theorem Implied.halted {n : Mnemonic} {s w : State} (h : Implied s n w) : w.halted = s.halted := by
  cases h <;> simp [push_eq, pop_eq]

theorem Jump.halted {i : Instr} {n : Mnemonic} {s w : State} (h : Jump i s n w) : w.halted = s.halted := by
  cases h <;> simp [push16_eq, pop16_eq, returnFromInterrupt_eq]

/-- BRK in halt mode alone changes `halted` (R226). -/
theorem exec_halted {i : Instr} {s t : State} (hx : exec i s = .next t) :
    t.halted = s.halted ∨ i = .brk ∧ s.params.brkMode = .halt := by
  cases exec_shape hx with
  | halt h hb e => exact .inr ⟨h, hb⟩
  | read effect h e => left; rw [e, endAt_halted, ← sourceOf_halted i s]; exact congrArg Outside.halted (h.outside _ _)
  | store v h e => left; rw [e, endAt_halted, busWrite_halted, operandOf_halted]
  | modify op h hm e => left; rw [e, endAt_halted, State.setP_halted, busWrite_halted, sourceOf_halted]
  | modifyA op h hm e => left; rw [e]; rfl
  | implied w h e => left; rw [e, endAt_halted, h.halted]
  | jump w h e => left; rw [e, State.setStepCycles_halted, h.halted]
  | software h hb e => left; rw [e, State.setStepCycles_halted, enterHandler_eq _ _ _ _ rfl rfl]
  | branch h pc cycles hc e => left; rw [e]; rfl

/-- A fetch leaves `halted` alone. -/
theorem fetch_halted {s : State} {f : Fetched} (h : fetch (beginInstruction s) = f) : f.state.halted = s.halted := by
  obtain ⟨u, v, k, es, e⟩ := fetch_touches (beginInstruction s)
  rw [← h, e]; rfl

@[simp] theorem interruptStep_halted (k : Interrupt) (s : State) : (interruptStep k s).halted = s.halted := by
  simp [interruptStep, beginStep, interruptEntry_eq]

/-- With no reset requested, a step changes `halted` only for a stop request, or executes BRK in halt mode. -/
theorem step_halted {s t : State} (hstep : step s = .next t) (hr : s.resetReq = false) :
    t.halted = (s.halted || s.stopReq) ∨
      s.params.brkMode = .halt ∧ ∃ u, fetch (beginInstruction s) = .instr .brk u := by
  rcases step_cases hstep with ⟨hr', -⟩ | ⟨-, -, rfl⟩ | ⟨-, -, hh, hq, run⟩
  · exact absurd (hr.symm.trans hr') Bool.false_ne_true
  · exact .inl (sampleStop_halted s)
  · rw [hh, hq]
    rcases run with ⟨k, -, rfl⟩ | ⟨-, op, u, hf, rfl⟩ | ⟨-, i, u, v, hf, hx, rfl⟩
    · exact .inl ((interruptStep_halted k s).trans hh)
    · exact .inl ((fetch_halted hf).trans hh)
    · rcases exec_halted hx with kept | ⟨rfl, mode⟩
      · exact .inl ((afterInstruction_halted v).trans (kept.trans ((fetch_halted hf).trans hh)))
      · exact .inr ⟨(fetch_params hf).symm ▸ mode, u, hf⟩

/-- Where the machine is stopped or asked to stop, a step, the request left aside, sets `halted` and nothing else (R433, R434). -/
theorem step_of_halted_or_stopReq {s : State} (h : (s.halted || s.stopReq) = true) (hr : s.resetReq = false) :
    ∃ t, step s = .next t ∧ t.setStopReq s.stopReq = s.setHalted true := by
  have stopped : (s.stopped || s.stopReq) = true := by rw [State.stopped, Bool.or_assoc, h, Bool.or_true]
  refine ⟨_, step_of_stopped hr stopped, ?_⟩
  rw [sampleStop_setStopReq, h]
  rfl

/-! ## An interrupt entry (R415, R416) -/

/-- A byte of the stack page after a push. -/
theorem push_memByte_stackAddr (v : Byte) (s : State) (q : Byte) :
    (push v s).memByte (stackAddr q) = if q = s.sp then v else s.memByte (stackAddr q) := by
  rw [memByte_ram _ _ (windowOf_stackAddr q), memByte_ram _ _ (windowOf_stackAddr q), ramIndex_stackAddr, push_ram_read]

section
variable (k : Interrupt) (s : State)

/-- An entry moves the stack pointer and `PC`, sets `I`, and writes no other flag (R415). -/
theorem interruptEntry_cpu :
    (interruptEntry k s).cpu =
      { s.cpu with sp := s.sp - 3, i := true, pc := word (s.memByte (k.vector + 1)) (s.memByte k.vector) } := by
  rw [interruptEntry_eq]
  simp [State.cpu_eq_flags]

/-- The memory after an entry is that after its pushes (R415). -/
theorem interruptEntry_memByte (a : Word) :
    (interruptEntry k s).memByte a = (push (pushedByInterrupt s.p) (push16 s.pc s)).memByte a := by
  apply memByte_congr
  · rw [interruptEntry_eq, push_eq, push16_eq]; rfl
  · rw [interruptEntry_eq, push_eq, push16_eq]; rfl

/-- The three bytes that an entry pushes, wherever the stack pointer wraps (R415, R28). -/
theorem interruptEntry_pushed :
    (interruptEntry k s).memByte (stackAddr s.sp) = hiByte s.pc ∧
    (interruptEntry k s).memByte (stackAddr (s.sp - 1)) = loByte s.pc ∧
    (interruptEntry k s).memByte (stackAddr (s.sp - 2)) = pushedByInterrupt s.p := by
  have hi_lo : s.sp ≠ s.sp - 1 := by bv_omega
  have hi_status : s.sp ≠ s.sp - 2 := by bv_omega
  have lo_status : s.sp - 1 ≠ s.sp - 2 := by bv_omega
  have low : s.sp - 1 - 1 = s.sp - 2 := sub_one_sub_one s.sp
  simp only [interruptEntry_memByte, push16, push_memByte_stackAddr, push_sp, low, hi_lo, hi_status, lo_status, if_true,
    if_false, and_self]

variable {k s}

/-- An entry stores at three addresses (R415). -/
theorem interruptEntry_memByte_of_not {a : Word} (h0 : ¬ SameRamByte (stackAddr s.sp) a)
    (h1 : ¬ SameRamByte (stackAddr (s.sp - 1)) a) (h2 : ¬ SameRamByte (stackAddr (s.sp - 2)) a) :
    (interruptEntry k s).memByte a = s.memByte a := by
  rw [interruptEntry_memByte, push_memByte_of_not (by rwa [push16_sp]), push16_memByte_of_not h0 h1]

/-- The entry that the arbiter calls for leaves no NMI request: NMI is acknowledged, and IRQ is taken where none is pending
(R413, R416). -/
theorem interruptEntry_outside (taken : arbitrate s = some k) :
    (interruptEntry k s).outside =
      { s.outside with ram := (interruptEntry k s).ram, ppu := { s.ppu with nmiPending := false } } := by
  have acknowledged : (s.ppu.nmiPending && decide (k = .irq)) = false := by
    cases k with
    | nmi => exact Bool.and_false _
    | irq =>
      cases pending : s.ppu.nmiPending with
      | false => rfl
      | true => simp [arbitrate, pending] at taken
  rw [interruptEntry_eq, acknowledged]
  rfl

end

/-- The entry step leaves the entry's processor, and costs seven cycles (R415). -/
theorem interruptStep_cpu (k : Interrupt) (s : State) :
    (interruptStep k s).cpu =
      { s.cpu with
        sp := s.sp - 3, i := true, pc := word (s.memByte (k.vector + 1)) (s.memByte k.vector), cost := 7 } := by
  have entry := interruptEntry_cpu k (beginStep s)
  have batch : (interruptStep k s).cpu = { (interruptEntry k (beginStep s)).cpu with cost := 7 } := tickBatch_cpu 7 _
  rw [batch, entry]
  rfl

/-- What surrounds the processor after a tick batch of `n` cycles: the batch's dots, its APU ticks, and its call of frame-ready where
the NMI request rises (R120, R322). -/
def Outside.afterBatch (n : Nat) (o : Outside) : Outside :=
  let ppu := Ppu.dots (3 * n) { o.ppu with frameComplete := false }
  { o with
    nmiPrev := o.ppu.nmiPending, ppu := ppu, apu := Apu.ticks n o.apu, cyc := o.cyc + n
    events := o.events ++ if o.ppu.nmiPending = false ∧ ppu.nmiPending = true then [.frameReady] else [] }

theorem tickBatch_outside (n : Nat) (s : State) : (tickBatch n s).outside = s.outside.afterBatch n := by
  have events := tickBatch_events n s
  rw [tickBatch_ppu] at events
  rw [tickBatch_eq, events]
  rfl

/-- Around the processor the entry step is the entry's pushes and the tick batch of seven cycles, in which frame-ready is called
where a new request is raised (R415, R321, R322). -/
theorem interruptStep_outside {k : Interrupt} {s : State} (taken : arbitrate s = some k) :
    (interruptStep k s).outside =
      let ppu := Ppu.dots 21 { s.ppu with nmiPending := false, frameComplete := false }
      { s.outside with
        ram := (interruptStep k s).ram, ppu := ppu, apu := Apu.ticks 7 s.apu, cyc := s.cyc + 7, dmaStall := 0
        nmiPrev := false, events := if ppu.nmiPending then [.frameReady] else [] } := by
  have ram : (interruptStep k s).ram = (interruptEntry k (beginStep s)).ram := tickBatch_ram 7 _
  have batch : (interruptStep k s).outside = (interruptEntry k (beginStep s)).outside.afterBatch 7 := tickBatch_outside 7 _
  have entry := interruptEntry_outside (s := beginStep s) taken
  rw [batch, entry, ram]
  simp [Outside.afterBatch, beginStep, State.outside]

/-! ## The statements of stopping and of interrupts -/

/-- Settles O10: by the kinds of step, and by the shapes of an instruction. -/
theorem haltAndStop : Obligations.HaltAndStop := by
  refine ⟨fun s hh hr => ?_, fun s hq hr => ?_, fun s t hstep hr => ⟨fun hh => ?_, fun hh => ?_⟩⟩
  · obtain ⟨t, hstep, e⟩ := step_of_halted_or_stopReq (by rw [hh, Bool.true_or]) hr
    exact ⟨t, hstep, by rw [e, ← hh]; rfl⟩
  · exact step_of_halted_or_stopReq (by rw [hq, Bool.or_true]) hr
  · have stopped : (s.stopped || s.stopReq) = true := by rw [State.stopped, hh, Bool.or_true, Bool.true_or]
    obtain rfl := Host.Outcome.next.inj ((step_of_stopped hr stopped).symm.trans hstep)
    rw [sampleStop_halted, hh, Bool.true_or]
  · rcases step_halted hstep hr with kept | brk
    · rw [hh] at kept
      exact (Bool.or_eq_true_iff.1 kept.symm).imp_right .inl
    · exact .inr (.inr brk)

/-- Settles O16: the branches of the arbiter, and the kinds of step that it comes between. -/
theorem arbitrationOrder : Obligations.ArbitrationOrder := by
  refine ⟨fun s nmi => if_pos nmi, fun s nmi on irq clear => ?_, fun s nmi masked => ?_, fun s => step_of_resetReq,
    fun s k hr hq hf hh taken => ?_⟩
  · exact (if_neg (ne_true_of_eq_false nmi)).trans (if_pos ⟨on, irq, clear⟩)
  · refine (if_neg (ne_true_of_eq_false nmi)).trans (if_neg ?_)
    rintro ⟨on, irq, clear⟩
    rcases masked with h | h | h
    · rw [h] at on; cases on
    · rw [h] at irq; cases irq
    · exact absurd (h.symm.trans clear) (by decide)
  · rw [step_of_running hr hf hh hq, taken]

/-- Settles O17: the entry that the arbiter calls for, and its tick batch, before which no NMI request is left. -/
theorem interruptEntryStep : Obligations.InterruptEntryStep := by
  intro s k hr hq hf hh taken
  obtain ⟨high, low, status⟩ := interruptEntry_pushed k (beginStep s)
  have memory : ∀ a, (interruptStep k s).memByte a = (interruptEntry k (beginStep s)).memByte a := tickBatch_memByte 7 _
  refine ⟨interruptStep k s, by rw [step_of_running hr hf hh hq, taken], ?_, (memory _).trans high, (memory _).trans low,
    (memory _).trans status, fun a h0 h1 h2 => (memory a).trans (interruptEntry_memByte_of_not h0 h1 h2),
    interruptStep_outside taken⟩
  rw [interruptStep_cpu]
  cases k <;> rfl

end Sys2Proof.Machine
end
